-- ==== Sys2Proof/Word.lean ====
section
/-! DEFINITION. The word types of the block: command and response words, frame bytes, the frame value. -/

namespace Sys2Proof

/-- A command word or a response word: one 64-bit transaction (R80, R217). -/
abbrev Word := BitVec 64

/-- A frame byte, a `u8` (R10). -/
abbrev Byte := BitVec 8

/-- A frame value: 18 bytes at positions 0..17 (R32, FRAME_LEN of R7). -/
abbrev Frame := Vector Byte 18

/-- A position of the frame index space, 0..17 (R60). -/
abbrev FramePos := Fin 18

end Sys2Proof
end

