-- ==== Sys2Proof/Syntax.lean ====
section
/-! DEFINITION. The commands of the block as syntax: the closed enumerations of the settings, the settings record, and one
constructor of `Instr` per row of spec/opcode_table.json. -/

namespace Sys2Proof

/-- The air conditioner's power setting (R96). -/
inductive PowerMode where
  | powerOff
  | powerOn
deriving DecidableEq, Repr, Inhabited

/-- The climate modes (R88). -/
inductive ClimateMode where
  | auto
  | hot
  | cold
  | dry
deriving DecidableEq, Repr, Inhabited

/-- The fan modes the FAN field can name. Speeds above N_FAN_SPEEDS are refused by `Instr.wf` (R90). -/
inductive FanMode where
  | auto
  | silent
  | speed1
  | speed2
  | speed3
  | speed4
  | speed5
  | speed6
deriving DecidableEq, Repr, Inhabited

/-- The vertical-vane positions the VV field can name: Auto, and `pos k` for VV_(k+1). Positions above N_VV are refused by
`Instr.wf` (R91). -/
inductive VerticalVane where
  | auto
  | pos (k : Fin 7)
deriving DecidableEq, Repr, Inhabited

/-- The horizontal-vane positions the HV field can name: NotApplicable, and `pos k` for HV_(k+1). Positions above N_HV are
refused by `Instr.wf` (R92). -/
inductive HorizontalVane where
  | notApplicable
  | pos (k : Fin 7)
deriving DecidableEq, Repr, Inhabited

/-- The presence-sensing modes (R93). -/
inductive ISeeMode where
  | notApplicable
  | off
  | on
deriving DecidableEq, Repr, Inhabited

/-- The area modes the AREA field can name: NotApplicable, and `area k` for the (k+1)-th other mode. Modes above N_AREA are
refused by `Instr.wf` (R94). -/
inductive AreaMode where
  | notApplicable
  | area (k : Fin 3)
deriving DecidableEq, Repr, Inhabited

/-- A present start or end time: hour 0..23 and minute 0..59 (R95). -/
structure TimeOfDay where
  hour : Fin 24
  minute : Fin 60
deriving DecidableEq, Repr, Inhabited

/-- The settings record a format S word carries (R99). The temperature stays the 8-bit two's-complement field TEMP; its value
in degrees is `temperature.toInt` (R89). `start` and `stop` are the optional start and end times. -/
structure Settings where
  climate : ClimateMode
  temperature : BitVec 8
  fan : FanMode
  vvane : VerticalVane
  hvane : HorizontalVane
  isee : ISeeMode
  area : AreaMode
  start : Option TimeOfDay
  stop : Option TimeOfDay
deriving DecidableEq, Repr, Inhabited

/-- The schedule modes (R108). -/
inductive ScheduleMode where
  | none
  | start
  | stop
  | both
deriving DecidableEq, Repr, Inhabited

/-- The nine overwritable fields of the frame, under the source's names (R100). -/
inductive FieldName where
  | power
  | climateAndISee
  | temperature
  | climateAndHorizontalVanne
  | fanAndVerticalVanne
  | clock
  | endTime
  | startTime
  | timeControlAndArea
deriving DecidableEq, Repr, Inhabited

/-- The commands: one constructor per opcode of R85, with the operands `decode` gives them (R99). -/
inductive Instr where
  | nop
  | build (pwr : PowerMode) (st : Settings)
  | transmit (rpt : BitVec 8)
  | send (st : Settings)
  | powerOff
  | readFrame (idx : FramePos)
  | readStatus
  | clearStatus
deriving DecidableEq, Repr, Inhabited

end Sys2Proof
end

