-- ==== Sys2Proof/Machine/Params.lean ====
section
/-! DEFINITION. The implementation parameters the spec leaves open, as one record (R8), its eight named well-formedness
checks (R9), and the well-formed record `Params` that every operation takes. A record that fails a check is refused: it is
no value of `Params`, so the model gives that configuration no meaning (R9, R251, U22). -/

namespace Sys2Proof

/-- The seven segment durations, in microseconds (R113). -/
structure Timing where
  hdrMark : Nat
  hdrSpace : Nat
  bitMark : Nat
  oneSpace : Nat
  zeroSpace : Nat
  rptMark : Nat
  rptSpace : Nat
deriving DecidableEq, Repr, Inhabited

/-- A parameter record before its checks (R8). The tables R7 fixes at 0x00 are carried too, so that the checks
`wf_isee_na` and `wf_zero_codes` of R9 are checks of the record. A code table has an entry for every name its field can hold;
the names above a count are reached by no command word (DEDUCED, log entry 14). -/
structure RawParams where
  fieldIndex : FieldName → Nat
  template : Frame
  reserved : List Nat
  powerCode : PowerMode → Byte
  climate1 : ClimateMode → Byte
  climate2 : ClimateMode → Byte
  iseeCode : ISeeMode → Byte
  fanCode : FanMode → Byte
  vvCode : VerticalVane → Byte
  hvCode : HorizontalVane → Byte
  areaCode : AreaMode → Byte
  tcCode : ScheduleMode → Byte
  nFanSpeeds : Nat
  nVV : Nat
  nHV : Nat
  nArea : Nat
  timing : Timing
  powerOffSettings : Settings

/-- Every field name, in the order of R100. -/
def FieldName.all : List FieldName :=
  [.power, .climateAndISee, .temperature, .climateAndHorizontalVanne, .fanAndVerticalVanne, .clock, .endTime, .startTime,
    .timeControlAndArea]

/-- Every area mode (R94). -/
def AreaMode.all : List AreaMode := [.notApplicable, .area 0, .area 1, .area 2]

/-- Every schedule mode (R108). -/
def ScheduleMode.all : List ScheduleMode := [.none, .start, .stop, .both]

/-- The well-formedness checks of R9, by name. -/
inductive ParamCheck where
  | indexInjective
  | indexRange
  | reservedDisjoint
  | reservedZero
  | counts
  | iseeNa
  | zeroCodes
  | powerOffAuto
deriving DecidableEq, Repr, Inhabited

/-- Every check, in the order R9 lists them. -/
def ParamCheck.all : List ParamCheck :=
  [.indexInjective, .indexRange, .reservedDisjoint, .reservedZero, .counts, .iseeNa, .zeroCodes, .powerOffAuto]

/-- The positions FIELD_INDEX uses. -/
def RawParams.fieldPositions (r : RawParams) : List Nat := FieldName.all.map r.fieldIndex

/-- Whether a record passes one check of R9. -/
def RawParams.passes (r : RawParams) : ParamCheck → Bool
  | .indexInjective => decide r.fieldPositions.Nodup
  | .indexRange => FieldName.all.all fun n => decide (r.fieldIndex n ≤ 16)
  | .reservedDisjoint => r.reserved.all fun i => decide (i ≤ 16) && !r.fieldPositions.contains i
  | .reservedZero => r.reserved.all fun i => r.template[i]? == some 0
  | .counts => decide (3 ≤ r.nFanSpeeds ∧ r.nFanSpeeds ≤ 6) && decide (r.nVV ≤ 7) && decide (r.nHV ≤ 7) && decide (r.nArea ≤ 3)
  | .iseeNa => r.iseeCode .notApplicable == 0
  | .zeroCodes => (AreaMode.all.all fun a => r.areaCode a == 0) && (ScheduleMode.all.all fun t => r.tcCode t == 0)
  | .powerOffAuto => r.powerOffSettings.climate == .auto

/-- The first check of R9 a record fails, if any. -/
def RawParams.failedCheck (r : RawParams) : Option ParamCheck := ParamCheck.all.find? fun c => !r.passes c

/-- A record is well-formed when every check of R9 holds. -/
def RawParams.wf (r : RawParams) : Bool := ParamCheck.all.all r.passes

/-- A record that shows the type `Params` has a value. It is not the model's configuration and nothing rests on it: the
configuration is the constant `Config.params`, of which no value can be proved. -/
def RawParams.inhabitant : RawParams where
  fieldIndex
    | .power => 0
    | .climateAndISee => 1
    | .temperature => 2
    | .climateAndHorizontalVanne => 3
    | .fanAndVerticalVanne => 4
    | .clock => 5
    | .endTime => 6
    | .startTime => 7
    | .timeControlAndArea => 8
  template := Vector.replicate 18 0
  reserved := []
  powerCode _ := 0
  climate1 _ := 0
  climate2 _ := 0
  iseeCode _ := 0
  fanCode _ := 0
  vvCode _ := 0
  hvCode _ := 0
  areaCode _ := 0
  tcCode _ := 0
  nFanSpeeds := 3
  nVV := 0
  nHV := 0
  nArea := 0
  timing := default
  powerOffSettings := default

/-- The implementation parameters: a record together with the proof that it passes every check of R9. -/
structure Params where
  raw : RawParams := RawParams.inhabitant
  wf : raw.wf = true := by decide
deriving Inhabited

/-- A record as parameters, or the check of R9 for which it is refused (R251, U22). -/
def RawParams.check (r : RawParams) : Except ParamCheck Params :=
  if h : r.wf = true then .ok ⟨r, h⟩ else .error (r.failedCheck.getD .indexInjective)

/-- Every check holds of well-formed parameters. -/
theorem Params.passes (p : Params) (c : ParamCheck) : p.raw.passes c = true := by
  have h := List.all_eq_true.mp p.wf c
  exact h (by cases c <;> simp [ParamCheck.all])

/-- `wf_index_range`, read back from well-formed parameters. -/
theorem Params.fieldIndex_lt (p : Params) (n : FieldName) : p.raw.fieldIndex n < 18 := by
  have h := p.passes .indexRange
  have h' := of_decide_eq_true (List.all_eq_true.mp h n (by cases n <;> simp [FieldName.all]))
  omega

/-- The position of a field, FIELD_INDEX(n) (R8, R100). -/
def Params.fieldPos (p : Params) (n : FieldName) : FramePos := ⟨p.raw.fieldIndex n, p.fieldIndex_lt n⟩

/-- The TIMING parameter (R113). -/
def Params.timing (p : Params) : Timing := p.raw.timing

end Sys2Proof
end

