-- ==== Sys2Proof/Config.lean ====
section
/-! DEFINITION. What the implementation fixes: the constants of R7, the documented default settings of R215, and the
configuration `Config.params`, a constant without a body. Nothing in Lean can evaluate `Config.params` or prove a value of
it, so what is proved of it holds for every well-formed parameter record (R8). -/

namespace Sys2Proof.Config

/-- CHECKSUM_INDEX (R7). -/
def checksumIndex : FramePos := 17

/-- TEMP_MIN (R7). -/
def tempMin : Int := 16

/-- TEMP_MAX (R7). -/
def tempMax : Int := 31

/-- CARRIER_HZ (R7). -/
def carrierHz : Nat := 38000

/-- PROTOCOL_REPEAT (R7). -/
def protocolRepeat : BitVec 8 := 2

/-- DEFAULT_TEMP (R7), the TEMP field 0x15. -/
def defaultTemp : BitVec 8 := 0x15

/-- DEFAULT_SETTINGS (R215). -/
def defaultSettings : Settings where
  climate := .auto
  temperature := defaultTemp
  fan := .auto
  vvane := .auto
  hvane := .notApplicable
  isee := .notApplicable
  area := .notApplicable
  start := none
  stop := none

/-- The implementation parameters of the machine (R8): open, so a constant without a body (DESIGN CHOICE, log entry 6). -/
opaque params : Params

end Sys2Proof.Config
end

