-- ==== Sys2Proof/Machine/Operands.lean ====
section
/-! DEFINITION. The operand forms of a command word: the ordinals of the enumerated fields (R88 to R94, R96), which members
exist under given parameters, the optional times (R95), and the values the frame encoder computes from operands: the
temperature offset (R135), the time bucket (R109), the schedule mode (R108). -/

namespace Sys2Proof

/-- The bits hi down to lo of a word, as a natural number (R11). -/
def bits (w : Word) (hi lo : Nat) : Nat := w.toNat / 2 ^ lo % 2 ^ (hi + 1 - lo)

/-- The PWR bit of a mode (R96). -/
def PowerMode.ordinal : PowerMode → Nat
  | .powerOff => 0
  | .powerOn => 1

/-- The mode of a PWR bit (R96). -/
def PowerMode.ofOrdinal : Nat → PowerMode
  | 0 => .powerOff
  | _ => .powerOn

/-- The CLM code of a mode (R88). -/
def ClimateMode.ordinal : ClimateMode → Nat
  | .auto => 0
  | .hot => 1
  | .cold => 2
  | .dry => 3

/-- The mode of a CLM code; all four are legal (R88). -/
def ClimateMode.ofOrdinal : Nat → ClimateMode
  | 0 => .auto
  | 1 => .hot
  | 2 => .cold
  | _ => .dry

/-- The FAN code of a mode (R90). -/
def FanMode.ordinal : FanMode → Nat
  | .auto => 0
  | .silent => 1
  | .speed1 => 2
  | .speed2 => 3
  | .speed3 => 4
  | .speed4 => 5
  | .speed5 => 6
  | .speed6 => 7

/-- The mode of a FAN code (R90). -/
def FanMode.ofOrdinal : Nat → FanMode
  | 0 => .auto
  | 1 => .silent
  | 2 => .speed1
  | 3 => .speed2
  | 4 => .speed3
  | 5 => .speed4
  | 6 => .speed5
  | _ => .speed6

/-- The rows of R90: the first five modes are always legal, a higher speed only if N_FAN_SPEEDS reaches it. -/
def FanMode.legal (p : Params) : FanMode → Bool
  | .auto | .silent | .speed1 | .speed2 | .speed3 => true
  | .speed4 => decide (4 ≤ p.raw.nFanSpeeds)
  | .speed5 => decide (5 ≤ p.raw.nFanSpeeds)
  | .speed6 => decide (6 ≤ p.raw.nFanSpeeds)

/-- The VV code of a position (R91). -/
def VerticalVane.ordinal : VerticalVane → Nat
  | .auto => 0
  | .pos k => k.val + 1

/-- The position of a VV code, if the 3-bit field can hold it (R91). -/
def VerticalVane.ofOrdinal : Nat → Option VerticalVane
  | 0 => some .auto
  | k + 1 => if h : k < 7 then some (.pos ⟨k, h⟩) else none

/-- VV_k is legal when k is at most N_VV (R91). -/
def VerticalVane.legal (p : Params) : VerticalVane → Bool
  | .auto => true
  | .pos k => decide (k.val + 1 ≤ p.raw.nVV)

/-- The HV code of a position (R92). -/
def HorizontalVane.ordinal : HorizontalVane → Nat
  | .notApplicable => 0
  | .pos k => k.val + 1

/-- The position of an HV code, if the 3-bit field can hold it (R92). -/
def HorizontalVane.ofOrdinal : Nat → Option HorizontalVane
  | 0 => some .notApplicable
  | k + 1 => if h : k < 7 then some (.pos ⟨k, h⟩) else none

/-- HV_k is legal when k is at most N_HV (R92). -/
def HorizontalVane.legal (p : Params) : HorizontalVane → Bool
  | .notApplicable => true
  | .pos k => decide (k.val + 1 ≤ p.raw.nHV)

/-- The ISEE code of a mode (R93). -/
def ISeeMode.ordinal : ISeeMode → Nat
  | .notApplicable => 0
  | .off => 1
  | .on => 2

/-- The mode of an ISEE code; 3 is illegal (R93). -/
def ISeeMode.ofOrdinal : Nat → Option ISeeMode
  | 0 => some .notApplicable
  | 1 => some .off
  | 2 => some .on
  | _ => none

/-- The AREA code of a mode (R94). -/
def AreaMode.ordinal : AreaMode → Nat
  | .notApplicable => 0
  | .area k => k.val + 1

/-- The mode of an AREA code, if the 2-bit field can hold it (R94). -/
def AreaMode.ofOrdinal : Nat → Option AreaMode
  | 0 => some .notApplicable
  | k + 1 => if h : k < 3 then some (.area ⟨k, h⟩) else none

/-- The k-th area mode is legal when k is at most N_AREA (R94). -/
def AreaMode.legal (p : Params) : AreaMode → Bool
  | .notApplicable => true
  | .area k => decide (k.val + 1 ≤ p.raw.nArea)

/-- The optional time of a present bit, an hour and a minute; `none` when the combination is illegal (R95). -/
def timeOfFields (present hour minute : Nat) : Option (Option TimeOfDay) :=
  if present = 0 then
    if hour = 0 ∧ minute = 0 then some none else none
  else if hh : hour < 24 then
    if hm : minute < 60 then some (some ⟨⟨hour, hh⟩, ⟨minute, hm⟩⟩) else none
  else none

/-- The present bit, hour and minute of an optional time (R95). -/
def timeFields : Option TimeOfDay → Nat × Nat × Nat
  | none => (0, 0, 0)
  | some t => (1, t.hour.val, t.minute.val)

/-- `clamp(v, lo, hi)` on integers (R12). -/
def clamp (v lo hi : Int) : Int := min (max v lo) hi

/-- The temperature offset `clamp(t, 16, 31) - 16` of a TEMP field read as two's complement (R135, R110). -/
def temperatureOffset (temp : BitVec 8) : Int := clamp temp.toInt Config.tempMin Config.tempMax - Config.tempMin

/-- The time bucket `h * (m // 10)`, exact on naturals (R109, R138, R139). -/
def bucket (hour minute : Nat) : Nat := hour * (minute / 10)

/-- The bucket of an optional time: 0 when it is absent (R139). -/
def optionalBucket : Option TimeOfDay → Nat
  | none => 0
  | some t => bucket t.hour.val t.minute.val

/-- The schedule mode follows from which times are present (R108). -/
def scheduleMode : Option TimeOfDay → Option TimeOfDay → ScheduleMode
  | some _, some _ => .both
  | none, some _ => .stop
  | some _, none => .start
  | none, none => .none

end Sys2Proof
end

