-- ==== Sys2Proof/WellFormed.lean ====
section
/-! DEFINITION. When a command is well-formed under given parameters: the four conditions the types of `Instr` do not
already carry, which members of the FAN, VV, HV and AREA enumerations exist. Every other condition of R87 to R98 is a bound
in the types of Syntax.lean. -/

namespace Sys2Proof

/-- A settings record is well-formed when its FAN, VV, HV and AREA members exist (R90, R91, R92, R94). -/
def Settings.wf (p : Params) (st : Settings) : Bool :=
  st.fan.legal p && st.vvane.legal p && st.hvane.legal p && st.area.legal p

/-- A command is well-formed when its settings, if it has any, are. -/
def Instr.wf (p : Params) : Instr → Bool
  | .build _ st => st.wf p
  | .send st => st.wf p
  | .nop => true
  | .transmit _ => true
  | .powerOff => true
  | .readFrame _ => true
  | .readStatus => true
  | .clearStatus => true

end Sys2Proof
end

