-- ==== Sys2Proof/Decode.lean ====
section
/-! DEFINITION. The decoder of R99, total on every 64-bit word and rejecting by name, and the encoder written from the same
tables (R81 to R98). Both take the parameters as an argument where legality depends on them; neither reads state. -/

namespace Sys2Proof

/-- Why a word is illegal. The block reports one code for all of them, ILLEGAL_CMD (R243). -/
inductive Illegal where
  /-- OP in 0x8..0xF (R86). -/
  | reservedOpcode
  /-- A bit the format reserves is not 0 (R87). -/
  | reservedBits
  /-- FAN names no mode (R90). -/
  | fan
  /-- VV names no position (R91). -/
  | verticalVane
  /-- HV names no position (R92). -/
  | horizontalVane
  /-- ISEE = 3 (R93). -/
  | isee
  /-- AREA names no mode (R94). -/
  | area
  /-- SP, SH and SM are no legal combination (R95). -/
  | startTime
  /-- EP, EH and EM are no legal combination (R95). -/
  | endTime
  /-- PWR = 1 in SEND (R87, R96). -/
  | sendPower
  /-- IDX above 17 (R98). -/
  | index
deriving DecidableEq, Repr

/-- A value, or the named reason to reject. -/
def orIllegal {α : Type} (why : Illegal) : Option α → Except Illegal α
  | some a => .ok a
  | none => .error why

/-- The optional value, kept only if the test accepts it. -/
def keepIf {α : Type} (test : α → Bool) : Option α → Option α
  | some a => if test a then some a else none
  | none => none

/-- The settings fields of a format S word, checked in the order of R99 step 3 (R82, R88 to R95). -/
def decodeSettings (p : Params) (w : Word) : Except Illegal Settings := do
  let fan ← orIllegal .fan (keepIf (FanMode.legal p) (some (FanMode.ofOrdinal (bits w 17 15))))
  let vvane ← orIllegal .verticalVane (keepIf (VerticalVane.legal p) (VerticalVane.ofOrdinal (bits w 20 18)))
  let hvane ← orIllegal .horizontalVane (keepIf (HorizontalVane.legal p) (HorizontalVane.ofOrdinal (bits w 23 21)))
  let isee ← orIllegal .isee (ISeeMode.ofOrdinal (bits w 25 24))
  let area ← orIllegal .area (keepIf (AreaMode.legal p) (AreaMode.ofOrdinal (bits w 27 26)))
  let start ← orIllegal .startTime (timeOfFields (bits w 28 28) (bits w 33 29) (bits w 39 34))
  let stop ← orIllegal .endTime (timeOfFields (bits w 40 40) (bits w 45 41) (bits w 51 46))
  .ok { climate := ClimateMode.ofOrdinal (bits w 6 5), temperature := BitVec.ofNat 8 (bits w 14 7),
        fan, vvane, hvane, isee, area, start, stop }

/-- The reserved-zero check of a format: the bits from lo to 63 are 0 (R87). -/
def reservedZeroFrom (w : Word) (lo : Nat) : Except Illegal Unit :=
  if bits w 63 lo = 0 then .ok () else .error .reservedBits

/-- A format N word: no operand, every bit above OP is 0 (R81). -/
def decodeN (i : Instr) (w : Word) : Except Illegal Instr := do
  reservedZeroFrom w 4
  .ok i

/-- A BUILD word (R82, R96). -/
def decodeBuild (p : Params) (w : Word) : Except Illegal Instr := do
  reservedZeroFrom w 52
  let st ← decodeSettings p w
  .ok (.build (PowerMode.ofOrdinal (bits w 4 4)) st)

/-- A SEND word; PWR must be 0 and is checked after the settings fields (R82, R96, R99 step 3). -/
def decodeSend (p : Params) (w : Word) : Except Illegal Instr := do
  reservedZeroFrom w 52
  let st ← decodeSettings p w
  if bits w 4 4 = 0 then .ok (.send st) else .error .sendPower

/-- A TRANSMIT word (R83, R97). -/
def decodeTransmit (w : Word) : Except Illegal Instr := do
  reservedZeroFrom w 12
  .ok (.transmit (BitVec.ofNat 8 (bits w 11 4)))

/-- A READ_FRAME word (R84, R98). -/
def decodeReadFrame (w : Word) : Except Illegal Instr := do
  reservedZeroFrom w 9
  if h : bits w 8 4 < 18 then .ok (.readFrame ⟨bits w 8 4, h⟩) else .error .index

/-- The decoder: opcode first, then the format's reserved bits, then its fields (R80, R85, R99). -/
def decode (p : Params) (w : Word) : Except Illegal Instr :=
  match bits w 3 0 with
  | 0 => decodeN .nop w
  | 1 => decodeBuild p w
  | 2 => decodeTransmit w
  | 3 => decodeSend p w
  | 4 => decodeN .powerOff w
  | 5 => decodeReadFrame w
  | 6 => decodeN .readStatus w
  | 7 => decodeN .clearStatus w
  | _ => .error .reservedOpcode

/-- The opcode of a command (R85). -/
def Instr.opcode : Instr → Nat
  | .nop => 0
  | .build _ _ => 1
  | .transmit _ => 2
  | .send _ => 3
  | .powerOff => 4
  | .readFrame _ => 5
  | .readStatus => 6
  | .clearStatus => 7

/-- The settings fields of a format S word, each at its place (R82). -/
def encodeSettings (st : Settings) : Nat :=
  let sp := timeFields st.start
  let ep := timeFields st.stop
  st.climate.ordinal * 2 ^ 5 + st.temperature.toNat * 2 ^ 7 + st.fan.ordinal * 2 ^ 15 + st.vvane.ordinal * 2 ^ 18
    + st.hvane.ordinal * 2 ^ 21 + st.isee.ordinal * 2 ^ 24 + st.area.ordinal * 2 ^ 26
    + sp.1 * 2 ^ 28 + sp.2.1 * 2 ^ 29 + sp.2.2 * 2 ^ 34 + ep.1 * 2 ^ 40 + ep.2.1 * 2 ^ 41 + ep.2.2 * 2 ^ 46

/-- The operand fields of a command, each at its place (R81 to R84). -/
def Instr.operandBits : Instr → Nat
  | .nop => 0
  | .build pwr st => pwr.ordinal * 2 ^ 4 + encodeSettings st
  | .transmit rpt => rpt.toNat * 2 ^ 4
  | .send st => encodeSettings st
  | .powerOff => 0
  | .readFrame idx => idx.val * 2 ^ 4
  | .readStatus => 0
  | .clearStatus => 0

/-- The command word of a command (R80 to R98). -/
def encode (i : Instr) : Word := BitVec.ofNat 64 (i.opcode + i.operandBits)

/-- The command the decoder reads from an opcode-table word of `nbits` bits, under the machine's parameters. A command is
one 64-bit word (R80, R117), so a longer one is refused (DESIGN CHOICE, log entry 15). -/
def decodeTableWord (nbits w : Nat) : Option Instr :=
  let v := w % 2 ^ nbits
  if v < 2 ^ 64 then
    match decode Config.params (BitVec.ofNat 64 v) with
    | .ok i => some i
    | .error _ => none
  else none

end Sys2Proof
end

