-- ==== Sys2Proof/Machine/State.lean ====
section
/-! DEFINITION. The state of the block as plain data: the record S of R30, the input ports and the response port, the
observation log OUT of R40, and the turns the environment has lined up (which agent acts next, and with what input). -/

namespace Sys2Proof.Machine

/-- The sequencer's phase; the value 7 is never held (R34, U19). -/
inductive Phase where
  | idle
  | hdrMark
  | hdrSpace
  | bitMark
  | bitSpace
  | ftrMark
  | ftrSpace
deriving DecidableEq, Repr

/-- The error codes ERR can hold; 5 to 15 are never produced (R242, U17). -/
inductive ErrCode where
  | none
  | illegalCmd
  | busy
  | noFrame
  | txFail
deriving DecidableEq, Repr

/-- A segment's level (R14). -/
inductive Level where
  | mark
  | space
deriving DecidableEq, Repr

/-- A segment: level, duration in microseconds, carrier frequency in Hz (R14). -/
structure Segment where
  level : Level
  durUs : Nat
  carrierHz : Nat
deriving DecidableEq, Repr

/-- An entry of the observation log OUT (R40). -/
inductive OutEntry where
  /-- A segment the TX agent accepted. -/
  | seg (sg : Segment)
  /-- A segment the TX agent refused, with its code. -/
  | txfail (level : Level) (durUs : Nat) (code : BitVec 8)
  /-- A reset event. -/
  | reset
deriving DecidableEq, Repr

/-- The TX agent's answer to one offered segment: a draw (R255, U5). TX always answers, as the spec assumes (R256, D15;
log entry 8). -/
inductive TxAnswer where
  | ok
  | fail (code : BitVec 8)
deriving DecidableEq, Repr

/-- One step of the model belongs to one agent, or is a reset (R70). A turn carries what the environment supplies in that
step: the command word and the levels of the time-of-day ports for HOST, the answer of TX for SEQ. -/
inductive Turn where
  | host (word : Word) (todHour : BitVec 5) (todMinute : BitVec 6)
  | seq (answer : TxAnswer)
  | reset
deriving DecidableEq, Repr

/-- The state of the block (R30), its ports, the log OUT and the turns to come. -/
structure State where
  /-- FRAME, 18 bytes (R32). -/
  frame : Frame
  /-- FRAME_VALID: FRAME holds a frame built since the last reset (R33). -/
  frameValid : Bool
  /-- PHASE (R34). -/
  phase : Phase
  /-- BYTE_IDX, 0..17 (R34). -/
  byteIdx : FramePos
  /-- BIT_IDX, 0..7 (R34). -/
  bitIdx : Fin 8
  /-- REP_DONE (R34). -/
  repDone : BitVec 8
  /-- REP_TOTAL (R34). -/
  repTotal : BitVec 8
  /-- ERR (R36). -/
  err : ErrCode
  /-- TXINFO (R37). -/
  txinfo : BitVec 8
  /-- The level of the input port TOD_HOUR in this step (R41), kept from the last HOST turn (DESIGN CHOICE, log entry 12). -/
  todHour : BitVec 5
  /-- The level of the input port TOD_MINUTE in this step (R41). -/
  todMinute : BitVec 6
  /-- The response port: the response word of the command just executed (R217); a SEQ turn and a reset leave none, and a step
  without a turn leaves it as it is (DESIGN CHOICE, log entry 9). -/
  resp : Option Word
  /-- OUT, oldest entry first (R40). -/
  out : List OutEntry
  /-- The turns the environment has lined up, next one first (R70): the model's own field (DESIGN CHOICE, log entry 3). -/
  turns : List Turn
deriving DecidableEq, Repr

/-- The reasons the machine stops. -/
inductive Fault where
  /-- Raised by the one operation that reads a byte of FRAME, when FRAME has no value (FRAME_VALID = 0), as R45, R251 and U21
  ask. SAFE: the model stops. No state that meets `Inv` reaches it: READ_FRAME and TRANSMIT are rejected first. -/
  | frameHasNoValue
deriving DecidableEq, Repr

/-- The reasons the model gives a step no meaning. -/
inductive Refusal where
  /-- Raised by an arm of `exec` for an instruction that has no meaning yet. SAFE: the model stops. No arm raises it now. -/
  | notModelled (mnemonic : String)
deriving DecidableEq, Repr

/-- The state right after reset (R44, R270). FRAME has no value after reset: FRAME_VALID = 0 says so, and the bytes held here
are the model's choice (DESIGN CHOICE, log entry 1). The port levels are the model's choice too (log entry 2). OUT is empty
and no turn is lined up. -/
def State.reset : State where
  frame := Vector.replicate 18 0
  frameValid := false
  phase := .idle
  byteIdx := 0
  bitIdx := 0
  repDone := 0
  repTotal := 0
  err := .none
  txinfo := 0
  todHour := 0
  todMinute := 0
  resp := none
  out := []
  turns := []

end Sys2Proof.Machine
end

