-- ==== Sys2Proof/Machine/Flags.lean ====
section
/-! DEFINITION. The status flags and the status word of READ_STATUS: the codes of PHASE and ERR, BUSY, the layout of R38. -/

namespace Sys2Proof.Machine

/-- The 3-bit code of a phase (R34). -/
def Phase.code : Phase → BitVec 3
  | .idle => 0
  | .hdrMark => 1
  | .hdrSpace => 2
  | .bitMark => 3
  | .bitSpace => 4
  | .ftrMark => 5
  | .ftrSpace => 6

/-- The 4-bit code of an error (R242). -/
def ErrCode.code : ErrCode → BitVec 4
  | .none => 0
  | .illegalCmd => 1
  | .busy => 2
  | .noFrame => 3
  | .txFail => 4

/-- BUSY = (PHASE != IDLE), derived and not stored (R35). -/
def State.busy (s : State) : Bool := s.phase != .idle

/-- The status word, fields from the top down, reserved bits 0 (R38). -/
def statusWord (s : State) : Word :=
  (s.repTotal ++ s.repDone ++ BitVec.ofNat 3 s.bitIdx.val ++ BitVec.ofNat 5 s.byteIdx.val ++ 0#1 ++ s.phase.code
    ++ s.txinfo ++ s.err.code ++ 0#2 ++ BitVec.ofBool s.frameValid ++ BitVec.ofBool s.busy : BitVec 44).setWidth 64

end Sys2Proof.Machine
end

