-- ==== Sys2Proof/Machine/Ops.lean ====
section
/-! DEFINITION. The shared operations of the block: the response of a command, the rejection (the block's only exception,
R241), the BUSY and NO_FRAME checks, the one read of a frame byte, the whole-frame commit, START, the log entries, ABORT, and
reset. -/

namespace Sys2Proof.Machine

/-- What one step of the machine answers. -/
abbrev Result := Host.Outcome State Fault Refusal

/-- `resp <- v`: the command's response word (R13, R217). -/
def respond (v : Word) (s : State) : State := { s with resp := some v }

/-- `reject E`: ERR takes the code, the response word is 0, nothing else changes (R13, R241). The block never traps: this is
all that raising an error does, and there is no return from it (R240, R250). -/
def reject (e : ErrCode) (s : State) : State := { s with err := e, resp := some 0 }

/-- Run a command that needs an idle sequencer, or reject it with BUSY (R244). -/
def whenIdle (s : State) (run : State → Result) : Result :=
  if s.busy then .next (reject .busy s) else run s

/-- Run a command that needs a frame, or reject it with NO_FRAME (R245). -/
def whenFrame (s : State) (run : State → Result) : Result :=
  if s.frameValid then run s else .next (reject .noFrame s)

/-- FRAME[i], the one read of a frame byte; a fault while FRAME has no value (R13, R45, R65, R251). -/
def readFrameByte (s : State) (i : FramePos) : Except Fault Byte :=
  if s.frameValid then .ok s.frame[i] else .error .frameHasNoValue

/-- `FRAME <- f; FRAME_VALID <- 1`, the whole frame in one step (R64, R142). -/
def commitFrame (f : Frame) (s : State) : State := { s with frame := f, frameValid := true }

/-- START(n): nothing when n is 0, else the counters are set and the header mark is next (R170). -/
def startTransmission (n : BitVec 8) (s : State) : State :=
  if n = 0 then s
  else { s with repTotal := n, repDone := 0, byteIdx := 0, bitIdx := 0, phase := .hdrMark }

/-- OUT <- OUT ++ [seg(...)], a segment TX accepted (R171). -/
def logSegment (sg : Segment) (s : State) : State := { s with out := s.out ++ [.seg sg] }

/-- OUT <- OUT ++ [txfail(...)], a segment TX refused (R171). -/
def logTxFail (sg : Segment) (code : BitVec 8) (s : State) : State :=
  { s with out := s.out ++ [.txfail sg.level sg.durUs code] }

/-- ABORT(code): the sequencer stops where it is, ERR and TXINFO record the failure (R178). -/
def abortTransmission (code : BitVec 8) (s : State) : State :=
  { s with phase := .idle, err := .txFail, txinfo := code }

/-- ERR <- 0; TXINFO <- 0 (R214). -/
def clearErrors (s : State) : State := { s with err := .none, txinfo := 0 }

/-- A reset event: every field of S takes its reset value, ERR and TXINFO among them (log entry 13), and OUT gets a `reset`
entry; the input ports, the turns to come and what OUT holds are kept (R40, R44, R270, R271; log entry 10). -/
def resetBlock (s : State) : State :=
  { State.reset with todHour := s.todHour, todMinute := s.todMinute, out := s.out ++ [.reset], turns := s.turns }

/-- The level of the output line where the block fixes it: idle means unmodulated, the same as a space (R184). While a
transmission is in progress the line is what TX makes of the segments, and the block fixes no level between them (DESIGN
CHOICE, log entry 11). -/
def lineLevel (s : State) : Option Level := if s.busy then none else some .space

end Sys2Proof.Machine
end

