-- ==== Sys2Proof/Machine/FrameEncoder.lean ====
section
/-! DEFINITION. The frame encoder: ENCODE with its ten steps (R131 to R142), and the commands BUILD and READ_FRAME. -/

namespace Sys2Proof.Machine

/-- The byte steps 2 to 9 of ENCODE write into a field (R133 to R140). -/
def fieldByte (p : Params) (pwr : PowerMode) (st : Settings) (hour : BitVec 5) (minute : BitVec 6) : FieldName → Byte
  | .power => p.raw.powerCode pwr
  | .climateAndISee => p.raw.climate1 st.climate ||| p.raw.iseeCode st.isee
  | .temperature => BitVec.ofInt 8 (temperatureOffset st.temperature)
  | .climateAndHorizontalVanne => p.raw.climate2 st.climate ||| p.raw.hvCode st.hvane
  | .fanAndVerticalVanne => p.raw.fanCode st.fan ||| p.raw.vvCode st.vvane
  | .clock => BitVec.ofNat 8 (bucket hour.toNat minute.toNat)
  | .endTime => BitVec.ofNat 8 (optionalBucket st.stop)
  | .startTime => BitVec.ofNat 8 (optionalBucket st.start)
  | .timeControlAndArea => p.raw.tcCode (scheduleMode st.start st.stop) ||| p.raw.areaCode st.area

/-- Write bytes into the field positions of a frame, one field after another. -/
def writeFields (p : Params) (byteOf : FieldName → Byte) (f : Frame) : List FieldName → Frame
  | [] => f
  | n :: ns => writeFields p byteOf (f.set (p.fieldPos n) (byteOf n)) ns

/-- The sum of bytes 0..16, as an unbounded natural (R141). -/
def checksumSum (f : Frame) : Nat := ((f.toList.take 17).map BitVec.toNat).sum

/-- The checksum: the sum of bytes 0..16 modulo 256 (R141). -/
def checksum (f : Frame) : Byte := BitVec.ofNat 8 (checksumSum f % 256)

/-- ENCODE: the template, the nine fields, then the checksum at position 17 (R131, R132, R141). -/
def encodeFrame (p : Params) (pwr : PowerMode) (st : Settings) (hour : BitVec 5) (minute : BitVec 6) : Frame :=
  let f := writeFields p (fieldByte p pwr st hour minute) p.raw.template FieldName.all
  f.set Config.checksumIndex (checksum f)

/-- Build a frame from the settings and the time-of-day ports as they stand in this step, and commit it (R131, R138, R142).
BUILD, SEND and POWER_OFF share it; each is one HOST step, so each samples the ports once (R257). -/
def buildFrame (p : Params) (pwr : PowerMode) (st : Settings) (s : State) : State :=
  commitFrame (encodeFrame p pwr st s.todHour s.todMinute) s

/-- BUILD (R131): BUSY while a transmission is in progress, else the frame is built and committed, response 0. -/
def execBuild (pwr : PowerMode) (st : Settings) (s : State) : Result :=
  whenIdle s fun s => .next (respond 0 (buildFrame Config.params pwr st s))

/-- READ_FRAME (R147): NO_FRAME while there is no frame, else the zero-extended byte. Allowed while BUSY. -/
def execReadFrame (idx : FramePos) (s : State) : Result :=
  whenFrame s fun s =>
    match readFrameByte s idx with
    | .ok b => .next (respond (b.setWidth 64) s)
    | .error f => .fault f

end Sys2Proof.Machine
end

