-- ==== Sys2Proof/Machine/Sequencer.lean ====
section
/-! DEFINITION. The pulse/space sequencer: the command TRANSMIT (R170) and the SEQ step with the segment of each phase and
where the sequencer goes next (R171 to R178). -/

namespace Sys2Proof.Machine

/-- TRANSMIT (R170): BUSY first, then NO_FRAME, else START with the repeat count, response 0. -/
def execTransmit (rpt : BitVec 8) (s : State) : Result :=
  whenIdle s fun s => whenFrame s fun s => .next (respond 0 (startTransmission rpt s))

/-- A MARK carries the carrier frequency (R14, R179). -/
def markSegment (durUs : Nat) : Segment := { level := .mark, durUs, carrierHz := Config.carrierHz }

/-- A SPACE is unmodulated (R14, R179). -/
def spaceSegment (durUs : Nat) : Segment := { level := .space, durUs, carrierHz := 0 }

/-- The space after a bit's mark: OneSpace for a 1, ZeroSpace for a 0 (R111, R175). -/
def bitSpaceSegment (p : Params) (bit : Bool) : Segment :=
  spaceSegment (if bit then p.timing.oneSpace else p.timing.zeroSpace)

/-- SEGMENT(S), the segment the current phase emits; none when the sequencer is idle (R171 to R177). -/
def currentSegment (p : Params) (s : State) : Except Fault (Option Segment) :=
  match s.phase with
  | .idle => .ok none
  | .hdrMark => .ok (some (markSegment p.timing.hdrMark))
  | .hdrSpace => .ok (some (spaceSegment p.timing.hdrSpace))
  | .bitMark => .ok (some (markSegment p.timing.bitMark))
  | .bitSpace =>
    match readFrameByte s s.byteIdx with
    | .ok b => .ok (some (bitSpaceSegment p (b.getLsbD s.bitIdx.val)))
    | .error f => .error f
  | .ftrMark => .ok (some (markSegment p.timing.rptMark))
  | .ftrSpace => .ok (some (spaceSegment p.timing.rptSpace))

/-- After a bit's space: the next bit of the byte, bit 0 of the next byte, or the footer (R175). -/
def advanceBit (s : State) : State :=
  if s.bitIdx.val < 7 then { s with bitIdx := s.bitIdx + 1, phase := .bitMark }
  else if s.byteIdx.val < 17 then { s with byteIdx := s.byteIdx + 1, bitIdx := 0, phase := .bitMark }
  else { s with phase := .ftrMark }

/-- After the footer space: one more repetition is done; the next one starts, or the sequencer is idle (R177). -/
def advanceRepetition (s : State) : State :=
  if s.repDone + 1 < s.repTotal then
    { s with repDone := s.repDone + 1, byteIdx := 0, bitIdx := 0, phase := .hdrMark }
  else { s with repDone := s.repDone + 1, phase := .idle }

/-- ADVANCE(): where the sequencer goes after an accepted segment (R172 to R177). -/
def advance (s : State) : State :=
  match s.phase with
  | .idle => s
  | .hdrMark => { s with phase := .hdrSpace }
  | .hdrSpace => { s with byteIdx := 0, bitIdx := 0, phase := .bitMark }
  | .bitMark => { s with phase := .bitSpace }
  | .bitSpace => advanceBit s
  | .ftrMark => { s with phase := .ftrSpace }
  | .ftrSpace => advanceRepetition s

/-- What TX's answer to the offered segment does (R171, R178). -/
def answerSegment (sg : Segment) (answer : TxAnswer) (s : State) : State :=
  match answer with
  | .ok => advance (logSegment sg s)
  | .fail code => abortTransmission code (logTxFail sg code s)

/-- SEQ's turn: offer the current segment to TX and act on its answer. An idle sequencer has no step, so its turn passes with
nothing done (R171). -/
def seqTurn (p : Params) (answer : TxAnswer) (s : State) : Result :=
  match currentSegment p s with
  | .ok none => .next s
  | .ok (some sg) => .next (answerSegment sg answer s)
  | .error f => .fault f

end Sys2Proof.Machine
end

