-- ==== Sys2Proof/Machine/Control.lean ====
section
/-! DEFINITION. The public operations SEND and POWER_OFF (R210, R211) and the control commands NOP, READ_STATUS and
CLEAR_STATUS (R212 to R214). -/

namespace Sys2Proof.Machine

/-- Build a frame and start its transmission with the protocol's repeat count, in one step (R210, R211, R216). -/
def buildAndSend (p : Params) (pwr : PowerMode) (st : Settings) (s : State) : State :=
  startTransmission Config.protocolRepeat (buildFrame p pwr st s)

/-- SEND (R210): always PowerOn; BUSY while a transmission is in progress. -/
def execSend (st : Settings) (s : State) : Result :=
  whenIdle s fun s => .next (respond 0 (buildAndSend Config.params .powerOn st s))

/-- POWER_OFF (R211): always PowerOff, with the settings POWER_OFF_SETTINGS; BUSY while a transmission is in progress. -/
def execPowerOff (s : State) : Result :=
  whenIdle s fun s => .next (respond 0 (buildAndSend Config.params .powerOff Config.params.raw.powerOffSettings s))

/-- NOP (R212): response 0, nothing else. -/
def execNop (s : State) : Result := .next (respond 0 s)

/-- READ_STATUS (R213): the status word; it clears nothing. -/
def execReadStatus (s : State) : Result := .next (respond (statusWord s) s)

/-- CLEAR_STATUS (R214): ERR and TXINFO are cleared, response 0. -/
def execClearStatus (s : State) : Result := .next (respond 0 (clearErrors s))

end Sys2Proof.Machine
end

