-- ==== Sys2Proof/Machine/Dispatch.lean ====
section
/-! DEFINITION. The meaning of every command: one arm per constructor of `Instr`. -/

namespace Sys2Proof.Machine

def exec (i : Instr) (s : State) : Host.Outcome State Fault Refusal :=
  match i with
  | .nop => Sys2Proof.Machine.execNop s
  | .build pwr st => Sys2Proof.Machine.execBuild pwr st s
  | .transmit rpt => Sys2Proof.Machine.execTransmit rpt s
  | .send st => Sys2Proof.Machine.execSend st s
  | .powerOff => Sys2Proof.Machine.execPowerOff s
  | .readFrame idx => Sys2Proof.Machine.execReadFrame idx s
  | .readStatus => Sys2Proof.Machine.execReadStatus s
  | .clearStatus => Sys2Proof.Machine.execClearStatus s

end Sys2Proof.Machine
end

