-- ==== Sys2Proof/Machine/Turns.lean ====
section
/-! DEFINITION. How a turn reaches the block and what its agent does: what taking a turn does to the ports, a HOST turn's word
decoded and executed, a SEQ turn, a reset, and how a command word is lined up as the next turn. -/

namespace Sys2Proof.Machine

/-- The turn is taken off the line and no response stands yet; a HOST turn drives the time-of-day ports for its step (R41,
R70, R217). -/
def takeTurn (t : Turn) (rest : List Turn) (s : State) : State :=
  match t with
  | .host _ hour minute => { s with turns := rest, resp := none, todHour := hour, todMinute := minute }
  | .seq _ => { s with turns := rest, resp := none }
  | .reset => { s with turns := rest, resp := none }

/-- The command of a command word, under the machine's parameters (R99). -/
def fetchCommand (w : Word) : Except Illegal Instr := decode Config.params w

/-- A HOST turn: the word is decoded; an illegal one is rejected with ILLEGAL_CMD, a command is executed (R99, R243, R247). -/
def hostTurn (w : Word) (s : State) : Result :=
  match fetchCommand w with
  | .ok i => exec i s
  | .error _ => .next (reject .illegalCmd s)

/-- A turn, run by its agent (R70, R248). -/
def runTurn (t : Turn) (s : State) : Result :=
  match t with
  | .host w _ _ => hostTurn w s
  | .seq answer => seqTurn Config.params answer s
  | .reset => .next (resetBlock s)

/-- Line up a command word as the very next turn, the time-of-day ports at their present levels, before the turns already
there. -/
def lineUpCommand (w : Word) (s : State) : State :=
  { s with turns := .host w s.todHour s.todMinute :: s.turns }

/-- The command word of an opcode-table word: one word of 64 bits, the bits above `nbits` 0 (R80). -/
def tableWord (nbits w : Nat) : Word := BitVec.ofNat 64 (w % 2 ^ nbits)

end Sys2Proof.Machine
end

