-- ==== Sys2Proof/Machine/Step.lean ====
section
/-! DEFINITION. One step of the machine: the next turn, if one is lined up, is taken by its agent (R70). -/

namespace Sys2Proof.Machine

/-- One step. With no turn lined up the block waits, and nothing changes (R272; log entry 4). -/
def step (s : State) : Host.Outcome State Fault Refusal :=
  match s.turns with
  | [] => .next s
  | t :: rest => runTurn t (takeTurn t rest s)

/-- The state with an opcode-table word lined up as the very next turn (log entry 5). -/
def State.withFetchWord (s : State) (nbits w : Nat) : State := lineUpCommand (tableWord nbits w) s

end Sys2Proof.Machine
end

