-- ==== Sys2Proof/Machine/Assembler.lean ====
section
/-! DEFINITION. The assembler syntax of R114 and the pseudo-instructions of R115, over a line as a list of characters. The
assembler is not hardware (D32); it is here because the spec gives it. What the spec leaves open about a line (spaces, the
order of keys, a key given twice) is fixed in log entry 7. -/

namespace Sys2Proof

/-- A token: the characters between two separators. -/
abbrev Token := List Char

/-- The pieces of a line between the separators `c`. -/
def splitAtChar (c : Char) : Token → List Token
  | [] => [[]]
  | x :: xs =>
    match splitAtChar c xs with
    | [] => [[x]]
    | t :: ts => if x = c then [] :: t :: ts else (x :: t) :: ts

/-- A token without the spaces around it. -/
def trimSpaces (t : Token) : Token := ((t.dropWhile (· == ' ')).reverse.dropWhile (· == ' ')).reverse

/-- The value a name stands for. -/
def lookupName {α : Type} (names : List (String × α)) (t : Token) : Option α :=
  (names.find? fun n => n.1.toList == t).map Prod.snd

/-- The value of a decimal digit. -/
def digitValue (c : Char) : Option Nat := if '0' ≤ c ∧ c ≤ '9' then some (c.toNat - '0'.toNat) else none

/-- The digits of a token read onto a value already read. -/
def readDigits (acc : Nat) : Token → Option Nat
  | [] => some acc
  | c :: cs =>
    match digitValue c with
    | some d => readDigits (acc * 10 + d) cs
    | none => none

/-- A decimal number of at least one digit. -/
def readNat (t : Token) : Option Nat := if t.isEmpty then none else readDigits 0 t

/-- A TEMP operand, a whole number in -128..127, as the 8-bit field (R89, R114). -/
def readTemp : Token → Option (BitVec 8)
  | '-' :: t => (readNat t).bind fun n => if n ≤ 128 then some (BitVec.ofInt 8 (-(n : Int))) else none
  | t => (readNat t).bind fun n => if n ≤ 127 then some (BitVec.ofNat 8 n) else none

/-- An `hh:mm` operand, two digits each, in 00:00..23:59 (R95, R114). -/
def readTime (t : Token) : Option TimeOfDay :=
  match splitAtChar ':' t with
  | [h, m] =>
    if h.length = 2 ∧ m.length = 2 then
      match readNat h, readNat m with
      | some hour, some minute =>
        if hh : hour < 24 then if hm : minute < 60 then some ⟨⟨hour, hh⟩, ⟨minute, hm⟩⟩ else none else none
      | _, _ => none
    else none
  | _ => none

/-- The values of `power=`. -/
def powerNames : List (String × PowerMode) := [("on", .powerOn), ("off", .powerOff)]

/-- The values of `climate=`. -/
def climateNames : List (String × ClimateMode) := [("auto", .auto), ("hot", .hot), ("cold", .cold), ("dry", .dry)]

/-- The values of `fan=`. -/
def fanNames : List (String × FanMode) :=
  [("auto", .auto), ("silent", .silent), ("speed1", .speed1), ("speed2", .speed2), ("speed3", .speed3), ("speed4", .speed4),
    ("speed5", .speed5), ("speed6", .speed6)]

/-- The values of `vvane=`. -/
def vvaneNames : List (String × VerticalVane) :=
  [("auto", .auto), ("vv1", .pos 0), ("vv2", .pos 1), ("vv3", .pos 2), ("vv4", .pos 3), ("vv5", .pos 4), ("vv6", .pos 5),
    ("vv7", .pos 6)]

/-- The values of `hvane=`. -/
def hvaneNames : List (String × HorizontalVane) :=
  [("na", .notApplicable), ("hv1", .pos 0), ("hv2", .pos 1), ("hv3", .pos 2), ("hv4", .pos 3), ("hv5", .pos 4),
    ("hv6", .pos 5), ("hv7", .pos 6)]

/-- The values of `isee=`. -/
def iseeNames : List (String × ISeeMode) := [("na", .notApplicable), ("off", .off), ("on", .on)]

/-- The values of `area=`. -/
def areaNames : List (String × AreaMode) :=
  [("na", .notApplicable), ("area1", .area 0), ("area2", .area 1), ("area3", .area 2)]

/-- A `key=value` operand. -/
abbrev Operand := Token × Token

/-- A `key=value` operand, read. -/
def readOperand (t : Token) : Option Operand :=
  match splitAtChar '=' t with
  | [k, v] => some (trimSpaces k, trimSpaces v)
  | _ => none

/-- The comma-separated operands of a line, no key twice. An empty text is no operand. -/
def readOperands (t : Token) : Option (List Operand) :=
  if (trimSpaces t).isEmpty then some []
  else ((splitAtChar ',' t).mapM readOperand).bind fun ops => if (ops.map Prod.fst).Nodup then some ops else none

/-- One setting key of R114 applied to a settings record. -/
def applySetting (st : Settings) (op : Operand) : Option Settings :=
  if op.1 = "climate".toList then (lookupName climateNames op.2).map fun v => { st with climate := v }
  else if op.1 = "temp".toList then (readTemp op.2).map fun v => { st with temperature := v }
  else if op.1 = "fan".toList then (lookupName fanNames op.2).map fun v => { st with fan := v }
  else if op.1 = "vvane".toList then (lookupName vvaneNames op.2).map fun v => { st with vvane := v }
  else if op.1 = "hvane".toList then (lookupName hvaneNames op.2).map fun v => { st with hvane := v }
  else if op.1 = "isee".toList then (lookupName iseeNames op.2).map fun v => { st with isee := v }
  else if op.1 = "area".toList then (lookupName areaNames op.2).map fun v => { st with area := v }
  else if op.1 = "start".toList then (readTime op.2).map fun v => { st with start := some v }
  else if op.1 = "end".toList then (readTime op.2).map fun v => { st with stop := some v }
  else none

/-- The settings of a list of keys; an absent key takes its default (R114, R215). -/
def settingsOf (ops : List Operand) : Option Settings := ops.foldlM applySetting Config.defaultSettings

/-- `build <keys>` with the power already known. -/
def buildLine (pwr : PowerMode) (ops : List Operand) : Option Instr := (settingsOf ops).map (Instr.build pwr)

/-- `build`: the `power` key has no default (R114). -/
def buildWithPower (ops : List Operand) : Option Instr :=
  (ops.find? fun o => o.1 == "power".toList).bind fun o =>
    (lookupName powerNames o.2).bind fun pwr => buildLine pwr (ops.filter fun o => o.1 != "power".toList)

/-- `transmit [repeat=<0..255>]`; an absent repeat is 2 (R114). -/
def transmitLine : List Operand → Option Instr
  | [] => some (.transmit Config.protocolRepeat)
  | [(k, v)] =>
    if k = "repeat".toList then (readNat v).bind fun n => if n ≤ 255 then some (.transmit (BitVec.ofNat 8 n)) else none
    else none
  | _ => none

/-- `readframe <0..17>` (R114). -/
def readFrameLine (t : Token) : Option Instr :=
  (readNat (trimSpaces t)).bind fun n => if h : n < 18 then some (.readFrame ⟨n, h⟩) else none

/-- A mnemonic without operands. -/
def plainLine (i : Instr) (rest : Token) : Option Instr := if (trimSpaces rest).isEmpty then some i else none

/-- The command of one line: a mnemonic or a pseudo-instruction, then its operands (R114, R115). -/
def commandOfLine (line : Token) : Option Instr :=
  let t := trimSpaces line
  let m := t.takeWhile (· != ' ')
  let rest := t.dropWhile (· != ' ')
  if m = "nop".toList then plainLine .nop rest
  else if m = "build".toList then (readOperands rest).bind buildWithPower
  else if m = "send".toList then ((readOperands rest).bind settingsOf).map Instr.send
  else if m = "transmit".toList then (readOperands rest).bind transmitLine
  else if m = "poweroff".toList then plainLine .powerOff rest
  else if m = "readframe".toList then readFrameLine rest
  else if m = "readstatus".toList then plainLine .readStatus rest
  else if m = "clearstatus".toList then plainLine .clearStatus rest
  else if m = "retransmit".toList then plainLine (.transmit 2) rest
  else if m = "send_defaults".toList then plainLine (.send Config.defaultSettings) rest
  else if m = "build_on".toList then (readOperands rest).bind (buildLine .powerOn)
  else if m = "build_off".toList then (readOperands rest).bind (buildLine .powerOff)
  else none

/-- The command word of one line; a line that names a member the parameters do not have is refused (R114). -/
def assemble (p : Params) (line : Token) : Option Word :=
  (commandOfLine line).bind fun i => if i.wf p then some (encode i) else none

end Sys2Proof
end

