-- ==== Sys2Proof/Machine/Stream.lean ====
section
/-! DEFINITION. The stream a whole transmission produces, as a function of the frame and the repeat count (R111, R112, R180),
and the time a repetition takes on the wire (R186). The step does not use these: the SEQ step emits one segment at a time, and
that a run of it emits this stream is a claim. -/

namespace Sys2Proof.Machine

/-- One frame bit as a pulse-distance pair (R111). -/
def bitSegments (p : Params) (bit : Bool) : List Segment :=
  [markSegment p.timing.bitMark, bitSpaceSegment p bit]

/-- The bits of a byte, bit 0 first (R63). -/
def byteBits (b : Byte) : List Bool := (List.range 8).map b.getLsbD

/-- The 144 bits of a frame, byte 0 first (R62, R63). -/
def frameBits (f : Frame) : List Bool := f.toList.flatMap byteBits

/-- BITSEGS(f) (R180). -/
def frameSegments (p : Params) (f : Frame) : List Segment := (frameBits f).flatMap (bitSegments p)

/-- REP(f): header, the 144 bits, footer (R112, R180). -/
def repetition (p : Params) (f : Frame) : List Segment :=
  [markSegment p.timing.hdrMark, spaceSegment p.timing.hdrSpace] ++ frameSegments p f
    ++ [markSegment p.timing.rptMark, spaceSegment p.timing.rptSpace]

/-- STREAM(f, n): n copies of REP(f) (R180). -/
def stream (p : Params) (f : Frame) (n : Nat) : List Segment := (List.replicate n (repetition p f)).flatten

/-- The number of 1 bits in a frame (R186). -/
def onesCount (f : Frame) : Nat := (frameBits f).count true

/-- The time a list of segments takes on the wire, in microseconds. -/
def totalDuration (sgs : List Segment) : Nat := (sgs.map Segment.durUs).sum

/-- DUR_REP(f), the formula of R186. -/
def repetitionDuration (p : Params) (f : Frame) : Nat :=
  p.timing.hdrMark + p.timing.hdrSpace + 144 * p.timing.bitMark + onesCount f * p.timing.oneSpace
    + (144 - onesCount f) * p.timing.zeroSpace + p.timing.rptMark + p.timing.rptSpace

end Sys2Proof.Machine
end

