-- ==== Sys2Proof/Safety.lean ====
section
/-! DEFINITION. What claims about the machine are stated in: illegal words in terms of their bits, which commands need an idle
sequencer or a frame, the frame invariants of R46, the invariant every step keeps, the start of a transmission, and when a run
is safe. -/

namespace Sys2Proof.Machine

/-- A present bit, hour and minute that make no legal time (R87, R95, R243). -/
def IllegalTime (present hour minute : Nat) : Prop :=
  (present = 0 ∧ (hour ≠ 0 ∨ minute ≠ 0)) ∨ (present = 1 ∧ (23 < hour ∨ 59 < minute))

/-- The settings fields of a format S word name something that does not exist (R90 to R95, R243). -/
def IllegalSettings (p : Params) (w : Word) : Prop :=
  1 + p.raw.nFanSpeeds < bits w 17 15 ∨ p.raw.nVV < bits w 20 18 ∨ p.raw.nHV < bits w 23 21 ∨ bits w 25 24 = 3 ∨
    p.raw.nArea < bits w 27 26 ∨ IllegalTime (bits w 28 28) (bits w 33 29) (bits w 39 34) ∨
    IllegalTime (bits w 40 40) (bits w 45 41) (bits w 51 46)

/-- A word that is no command, in terms of its bits alone (R86, R87, R243). -/
def IllegalWord (p : Params) (w : Word) : Prop :=
  8 ≤ bits w 3 0 ∨
  ((bits w 3 0 = 0 ∨ bits w 3 0 = 4 ∨ bits w 3 0 = 6 ∨ bits w 3 0 = 7) ∧ bits w 63 4 ≠ 0) ∨
  ((bits w 3 0 = 1 ∨ bits w 3 0 = 3) ∧ (bits w 63 52 ≠ 0 ∨ IllegalSettings p w)) ∨
  (bits w 3 0 = 3 ∧ bits w 4 4 = 1) ∨
  (bits w 3 0 = 2 ∧ bits w 63 12 ≠ 0) ∨
  (bits w 3 0 = 5 ∧ (bits w 63 9 ≠ 0 ∨ 17 < bits w 8 4))

/-- The commands that need an idle sequencer: BUILD, TRANSMIT, SEND and POWER_OFF (R244). -/
def NeedsIdle : Instr → Prop
  | .build _ _ => True
  | .transmit _ => True
  | .send _ => True
  | .powerOff => True
  | .nop => False
  | .readFrame _ => False
  | .readStatus => False
  | .clearStatus => False

/-- The commands that need a frame: TRANSMIT and READ_FRAME (R245). -/
def NeedsFrame : Instr → Prop
  | .transmit _ => True
  | .readFrame _ => True
  | .nop => False
  | .build _ _ => False
  | .send _ => False
  | .powerOff => False
  | .readStatus => False
  | .clearStatus => False

/-- The commands that build a frame: BUILD, SEND and POWER_OFF (R43, R257). -/
def BuildsFrame : Instr → Prop
  | .build _ _ => True
  | .send _ => True
  | .powerOff => True
  | .nop => False
  | .transmit _ => False
  | .readFrame _ => False
  | .readStatus => False
  | .clearStatus => False

/-- The three invariants of a built frame (R46): the checksum byte, the template bytes outside the field positions, and the
range of the Temperature byte. -/
structure FrameInv (p : Params) (f : Frame) : Prop where
  checksum_byte : f[Config.checksumIndex].toNat = checksumSum f % 256
  template_bytes : ∀ i : FramePos, i ≠ Config.checksumIndex → (∀ n, p.fieldPos n ≠ i) → f[i] = p.raw.template[i]
  temperature_range : f[p.fieldPos .temperature].toNat ≤ 15

/-- The invariant of the machine: a valid frame meets R46; a transmission in progress has a frame and a repetition still to do
(R33, R34, R45, R170, R177); the position counters fit the header and the footer (R170, R173, R175, R177). -/
structure Inv (s : State) : Prop where
  frame_inv : s.frameValid = true → FrameInv Config.params s.frame
  busy_has_frame : s.phase ≠ .idle → s.frameValid = true
  busy_reps : s.phase ≠ .idle → s.repDone < s.repTotal
  header_position : s.phase = .hdrMark ∨ s.phase = .hdrSpace → s.byteIdx = 0 ∧ s.bitIdx = 0
  footer_position : s.phase = .ftrMark ∨ s.phase = .ftrSpace → s.byteIdx = 17 ∧ s.bitIdx = 7

/-- The sequencer stands where START(n) leaves it, with a frame to send (R170). -/
structure AtStart (n : BitVec 8) (s : State) : Prop where
  has_frame : s.frameValid = true
  phase_header : s.phase = .hdrMark
  byte_first : s.byteIdx = 0
  bit_first : s.bitIdx = 0
  none_done : s.repDone = 0
  total : s.repTotal = n
  some_rep : n ≠ 0

/-- A turn that cannot end a transmission early: a HOST turn, or a SEQ turn TX answers with ok (R73). -/
def Turn.harmless : Turn → Bool
  | .host _ _ _ => true
  | .seq .ok => true
  | .seq (.fail _) => false
  | .reset => false

/-- A SEQ turn. -/
def Turn.isSeq : Turn → Bool
  | .host _ _ _ => false
  | .seq _ => true
  | .reset => false

/-- Segments as entries of OUT (R40). -/
def segEntries (sgs : List Segment) : List OutEntry := sgs.map OutEntry.seg

/-- `k` steps of the machine, stopping at the first fault or refusal. It is `Host.Core.run` of the machine
(`Laws.run_eq_core_run`), written over the model's own types. -/
def run : Nat → State → Result
  | 0, s => .next s
  | k + 1, s =>
    match step s with
    | .next t => run k t
    | .fault f => .fault f
    | .refused r => .refused r

/-- A run of `k` steps is safe when it meets no fault and no refusal. -/
def SafeRun (k : Nat) (s : State) : Prop := ∃ t, run k s = .next t

end Sys2Proof.Machine
end

