-- ==== Sys2Proof/Certificates/Slice0/Obligations.lean ====
section
/-! DEFINITION. The statements for the provers. Each follows a rule of the spec, or says in its docstring that it rests on the
model's own choice and names the log entry. -/

open Sys2Proof Sys2Proof.Machine

/-! ### Encoding -/

/-- Twelve words of spec/95 section 2.1 that decode to commands whatever the parameters, one or more per opcode, and eight
illegal words, at least one of each kind that does not depend on the parameters: a reserved opcode, a reserved bit, PWR in SEND,
IDX, ISEE = 3, an absent and a present start time, an end time (this last word written out from R82 and R95). -/
def Obligations.TabledWordsDecode : Prop :=
  ∀ p : Params,
    decode p 0x0000000000000000 = .ok .nop ∧
    decode p 0x0000000000000A91 = .ok (.build .powerOn Config.defaultSettings) ∧
    decode p 0x0000000000020951
      = .ok (.build .powerOn { Config.defaultSettings with climate := .cold, temperature := 18, fan := .speed3 }) ∧
    decode p 0x0000000000007D91 = .ok (.build .powerOn { Config.defaultSettings with temperature := 0xFB }) ∧
    decode p 0x000000EEF0001471
      = .ok (.build .powerOn
          { Config.defaultSettings with climate := .dry, temperature := 40, start := some ⟨23, 59⟩ }) ∧
    decode p 0x0000000000000022 = .ok (.transmit 2) ∧
    decode p 0x0000000000000A83 = .ok (.send Config.defaultSettings) ∧
    decode p 0x0000000000000004 = .ok .powerOff ∧
    decode p 0x0000000000000075 = .ok (.readFrame 7) ∧
    decode p 0x0000000000000115 = .ok (.readFrame 17) ∧
    decode p 0x0000000000000006 = .ok .readStatus ∧
    decode p 0x0000000000000007 = .ok .clearStatus ∧
    decode p 0x0000000000000008 = .error .reservedOpcode ∧
    decode p 0x0000000000000010 = .error .reservedBits ∧
    decode p 0x0000000000000A93 = .error .sendPower ∧
    decode p 0x0000000000000125 = .error .index ∧
    decode p 0x0000000003000001 = .error .isee ∧
    decode p 0x00000000A0000001 = .error .startTime ∧
    decode p 0x0000000310000001 = .error .startTime ∧
    decode p 0x0000310000000001 = .error .endTime

/-- Decoding the encoding of a well-formed command gives the command back, whatever its operands (R99). -/
def Obligations.EncodedCommandsDecodeBack : Prop :=
  ∀ (p : Params) (i : Instr), i.wf p = true → decode p (encode i) = .ok i

/-- A word that decodes is the encoding of its command, so a legal command has exactly one encoding (R87, last sentence), and
what decodes is well-formed. -/
def Obligations.DecodedWordsAreTheEncoding : Prop :=
  ∀ (p : Params) (w : Word) (i : Instr), decode p w = .ok i → encode i = w ∧ i.wf p = true

/-- The table of R82: where each settings field of a BUILD or SEND word is read, PWR 0 in SEND, the reserved bits 0. -/
def Obligations.SettingsFieldsAreReadAtTheirPlaces : Prop :=
  ∀ (p : Params) (w : Word) (pwr : PowerMode) (st : Settings),
    (decode p w = .ok (.build pwr st) ∨ (decode p w = .ok (.send st) ∧ pwr = .powerOff)) →
      pwr.ordinal = bits w 4 4 ∧ st.climate.ordinal = bits w 6 5 ∧ st.temperature.toNat = bits w 14 7 ∧
      st.fan.ordinal = bits w 17 15 ∧ st.vvane.ordinal = bits w 20 18 ∧ st.hvane.ordinal = bits w 23 21 ∧
      st.isee.ordinal = bits w 25 24 ∧ st.area.ordinal = bits w 27 26 ∧
      timeFields st.start = (bits w 28 28, bits w 33 29, bits w 39 34) ∧
      timeFields st.stop = (bits w 40 40, bits w 45 41, bits w 51 46) ∧ bits w 63 52 = 0 ∧
      bits w 3 0 = (if decode p w = .ok (.build pwr st) then 1 else 3)

/-- The codes of CLM (R88) and ISEE (R93) in a BUILD or SEND word: which mode each code names, and that ISEE = 3 names none. -/
def Obligations.ClimateAndSensingCodesNameTheirModes : Prop :=
  ∀ (p : Params) (w : Word) (st : Settings), ((∃ pwr, decode p w = .ok (.build pwr st)) ∨ decode p w = .ok (.send st)) →
    (bits w 6 5 = 0 → st.climate = .auto) ∧ (bits w 6 5 = 1 → st.climate = .hot) ∧ (bits w 6 5 = 2 → st.climate = .cold) ∧
    (bits w 6 5 = 3 → st.climate = .dry) ∧ (bits w 25 24 = 0 → st.isee = .notApplicable) ∧
    (bits w 25 24 = 1 → st.isee = .off) ∧ (bits w 25 24 = 2 → st.isee = .on) ∧ bits w 25 24 ≠ 3

/-- The codes of FAN (R90), VV (R91), HV (R92), AREA (R94) and PWR (R96) in a BUILD or SEND word: which member each code names,
with the bound the parameters put on it. The names of the fan speeds rest on the spec's decision D31. -/
def Obligations.FanVaneAreaAndPowerCodesNameTheirMembers : Prop :=
  ∀ (p : Params) (w : Word) (st : Settings), ((∃ pwr, decode p w = .ok (.build pwr st)) ∨ decode p w = .ok (.send st)) →
    (bits w 17 15 = 0 → st.fan = .auto) ∧ (bits w 17 15 = 1 → st.fan = .silent) ∧ (bits w 17 15 = 2 → st.fan = .speed1) ∧
    (bits w 17 15 = 3 → st.fan = .speed2) ∧ (bits w 17 15 = 4 → st.fan = .speed3) ∧ (bits w 17 15 = 5 → st.fan = .speed4) ∧
    (bits w 17 15 = 6 → st.fan = .speed5) ∧ (bits w 17 15 = 7 → st.fan = .speed6) ∧
    bits w 17 15 ≤ 1 + p.raw.nFanSpeeds ∧
    (bits w 20 18 = 0 → st.vvane = .auto) ∧ (∀ k : Fin 7, bits w 20 18 = k.val + 1 → st.vvane = .pos k) ∧
    bits w 20 18 ≤ p.raw.nVV ∧
    (bits w 23 21 = 0 → st.hvane = .notApplicable) ∧ (∀ k : Fin 7, bits w 23 21 = k.val + 1 → st.hvane = .pos k) ∧
    bits w 23 21 ≤ p.raw.nHV ∧
    (bits w 27 26 = 0 → st.area = .notApplicable) ∧ (∀ k : Fin 3, bits w 27 26 = k.val + 1 → st.area = .area k) ∧
    bits w 27 26 ≤ p.raw.nArea ∧
    (∀ pwr, decode p w = .ok (.build pwr st) →
      (bits w 4 4 = 0 → pwr = .powerOff) ∧ (bits w 4 4 = 1 → pwr = .powerOn)) ∧
    (decode p w = .ok (.send st) → bits w 4 4 = 0)

/-- The tables of R83 and R84: where RPT and IDX are read, and the reserved bits 0. -/
def Obligations.CountAndIndexFieldsAreRead : Prop :=
  ∀ (p : Params) (w : Word),
    (∀ rpt, decode p w = .ok (.transmit rpt) → bits w 3 0 = 2 ∧ rpt.toNat = bits w 11 4 ∧ bits w 63 12 = 0) ∧
    (∀ idx, decode p w = .ok (.readFrame idx) → bits w 3 0 = 5 ∧ idx.val = bits w 8 4 ∧ bits w 63 9 = 0)

/-- R243 with R86: exactly the words that are illegal by their bits are rejected with ILLEGAL_CMD, in every state, and nothing
but ERR and the response changes (R241); every other word decodes to a well-formed command. That the turn leaves the line and
the ports take its levels is the model's choice (log entries 3 and 12). -/
def Obligations.IllegalWordsAreRejected : Prop :=
  ∀ (s : State) (w : Word) (h : BitVec 5) (m : BitVec 6) (rest : List Turn), s.turns = .host w h m :: rest →
    (IllegalWord Config.params w →
      step s = .next { s with turns := rest, todHour := h, todMinute := m, resp := some 0, err := .illegalCmd }) ∧
    (¬ IllegalWord Config.params w → ∃ i, decode Config.params w = .ok i ∧ i.wf Config.params = true)

/-! ### The step -/

/-- When the next turn is HOST's and its word decodes, the step is exec of that command, with the turn taken off the line, the
time-of-day ports at the turn's levels and no response standing yet. How turns are lined up is the model's choice (log entries
3, 9 and 12). -/
def Obligations.StepRunsTheDecodedCommand : Prop :=
  ∀ (s : State) (w : Word) (h : BitVec 5) (m : BitVec 6) (rest : List Turn) (i : Instr),
    s.turns = .host w h m :: rest → decode Config.params w = .ok i →
      step s = exec i { s with turns := rest, todHour := h, todMinute := m, resp := none }

/-- With no turn lined up the block waits (R272); that waiting is a step that changes nothing is the model's choice (log
entry 4). -/
def Obligations.StepWithoutATurnWaits : Prop := ∀ s : State, s.turns = [] → step s = .next s

/-- Every command of every kind answers a next state in every state: no command faults and none is refused (R251). -/
def Obligations.EveryCommandHasAnEffect : Prop := ∀ (i : Instr) (s : State), ∃ t, exec i s = .next t

/-! ### What each command does, with its frame -/

/-- BUILD on an idle sequencer (R131): FRAME, FRAME_VALID and the response change, nothing else. -/
def Obligations.BuildCommitsTheEncodedFrame : Prop :=
  ∀ (pwr : PowerMode) (st : Settings) (s : State), s.phase = .idle →
    exec (.build pwr st) s = .next { s with
      frame := encodeFrame Config.params pwr st s.todHour s.todMinute, frameValid := true, resp := some 0 }

/-- READ_FRAME (R147): the zero-extended byte when there is a frame, in every phase; NO_FRAME otherwise. -/
def Obligations.ReadFrameAnswersTheByte : Prop :=
  ∀ (idx : FramePos) (s : State),
    (s.frameValid = true → exec (.readFrame idx) s = .next { s with resp := some (s.frame[idx].setWidth 64) }) ∧
    (s.frameValid = false → exec (.readFrame idx) s = .next { s with err := .noFrame, resp := some 0 })

/-- TRANSMIT with an idle sequencer and a frame (R170): a count of 0 does nothing, any other sets the counters and the phase.
Counts other than 2 rest on the spec's decision D13. -/
def Obligations.TransmitStartsTheSequencer : Prop :=
  ∀ (rpt : BitVec 8) (s : State), s.phase = .idle → s.frameValid = true →
    (rpt = 0 → exec (.transmit rpt) s = .next { s with resp := some 0 }) ∧
    (rpt ≠ 0 → exec (.transmit rpt) s = .next { s with
      repTotal := rpt, repDone := 0, byteIdx := 0, bitIdx := 0, phase := .hdrMark, resp := some 0 })

/-- SEND on an idle sequencer (R210): a power-on frame (the spec's decision D11), then the start of two repetitions. -/
def Obligations.SendBuildsAndStarts : Prop :=
  ∀ (st : Settings) (s : State), s.phase = .idle →
    exec (.send st) s = .next { s with
      frame := encodeFrame Config.params .powerOn st s.todHour s.todMinute, frameValid := true,
      repTotal := 2, repDone := 0, byteIdx := 0, bitIdx := 0, phase := .hdrMark, resp := some 0 }

/-- POWER_OFF on an idle sequencer (R211): a power-off frame of POWER_OFF_SETTINGS, then the start of two repetitions. -/
def Obligations.PowerOffBuildsAndStarts : Prop :=
  ∀ s : State, s.phase = .idle →
    exec .powerOff s = .next { s with
      frame := encodeFrame Config.params .powerOff Config.params.raw.powerOffSettings s.todHour s.todMinute,
      frameValid := true, repTotal := 2, repDone := 0, byteIdx := 0, bitIdx := 0, phase := .hdrMark, resp := some 0 }

/-- NOP, READ_STATUS and CLEAR_STATUS in every state (R212, R213, R214). -/
def Obligations.ControlCommandsTakeEffect : Prop :=
  ∀ s : State,
    exec .nop s = .next { s with resp := some 0 } ∧
    exec .readStatus s = .next { s with resp := some (statusWord s) } ∧
    exec .clearStatus s = .next { s with err := .none, txinfo := 0, resp := some 0 }

/-- READ_STATUS answers the status word of R38: every field at its place under the codes of R34 and R242, every reserved bit
0, and nothing else changes. -/
def Obligations.StatusWordLayout : Prop :=
  ∀ s : State, ∃ w : Word, exec .readStatus s = .next { s with resp := some w } ∧
    bits w 0 0 = (if s.phase = .idle then 0 else 1) ∧ bits w 1 1 = (if s.frameValid = true then 1 else 0) ∧
    bits w 3 2 = 0 ∧
    bits w 7 4 = (match s.err with | .none => 0 | .illegalCmd => 1 | .busy => 2 | .noFrame => 3 | .txFail => 4) ∧
    bits w 15 8 = s.txinfo.toNat ∧
    bits w 18 16 = (match s.phase with
      | .idle => 0 | .hdrMark => 1 | .hdrSpace => 2 | .bitMark => 3 | .bitSpace => 4 | .ftrMark => 5 | .ftrSpace => 6) ∧
    bits w 19 19 = 0 ∧ bits w 24 20 = s.byteIdx.val ∧ bits w 27 25 = s.bitIdx.val ∧ bits w 35 28 = s.repDone.toNat ∧
    bits w 43 36 = s.repTotal.toNat ∧ bits w 63 44 = 0

/-! ### Rejections -/

/-- R244: BUSY is raised by BUILD, TRANSMIT, SEND and POWER_OFF while PHASE is not IDLE, precisely; the other four commands
never raise it. -/
def Obligations.BusyRejectsExactlyTheStarters : Prop :=
  ∀ (i : Instr) (s : State), s.phase ≠ .idle →
    (NeedsIdle i → exec i s = .next { s with err := .busy, resp := some 0 }) ∧
    (¬ NeedsIdle i → ∃ t, exec i s = .next t ∧ (t.err = .busy → s.err = .busy))

/-- R245: NO_FRAME is raised by TRANSMIT while not BUSY and by READ_FRAME, both without a frame, precisely. In every other case
no command raises it: not a command that needs no frame (NOP, BUILD, SEND, POWER_OFF, READ_STATUS, CLEAR_STATUS), not a TRANSMIT
while BUSY, and none at all while there is a frame. -/
def Obligations.NoFrameRejectsExactlyTheFrameUsers : Prop :=
  ∀ s : State,
    (s.frameValid = false →
      (∀ rpt, s.phase = .idle → exec (.transmit rpt) s = .next { s with err := .noFrame, resp := some 0 }) ∧
      (∀ idx, exec (.readFrame idx) s = .next { s with err := .noFrame, resp := some 0 })) ∧
    (∀ i, (¬ NeedsFrame i ∨ s.frameValid = true ∨ ((∃ rpt, i = .transmit rpt) ∧ s.phase ≠ .idle)) →
      ∃ t, exec i s = .next t ∧ (t.err = .noFrame → s.err = .noFrame))

/-- R247: of several rejection conditions the first in the order ILLEGAL_CMD, BUSY, NO_FRAME is reported. -/
def Obligations.FirstRejectionConditionIsReported : Prop :=
  ∀ (s : State) (w : Word) (h : BitVec 5) (m : BitVec 6) (rest : List Turn), s.turns = .host w h m :: rest →
    ∃ t, step s = .next t ∧
      (IllegalWord Config.params w → t.err = .illegalCmd) ∧
      (∀ i, ¬ IllegalWord Config.params w → decode Config.params w = .ok i → NeedsIdle i → s.phase ≠ .idle → t.err = .busy) ∧
      (∀ i, ¬ IllegalWord Config.params w → decode Config.params w = .ok i → ¬ (NeedsIdle i ∧ s.phase ≠ .idle) →
        NeedsFrame i → s.frameValid = false → t.err = .noFrame)

/-- R217: every command word is answered by exactly one response word, in its own step: READ_FRAME by the byte, READ_STATUS by
the status word, every other and every rejected command by 0. That a SEQ turn and a reset leave no response is the model's
choice (log entry 9). A step without a turn is no agent's step (log entry 4) and is not spoken of here. -/
def Obligations.EveryCommandIsAnsweredOnce : Prop :=
  ∀ (s t : State) (turn : Turn) (rest : List Turn), s.turns = turn :: rest → step s = .next t →
    match turn with
    | .host w _ _ =>
      match decode Config.params w with
      | .ok (.readFrame idx) => t.resp = some (if s.frameValid = true then s.frame[idx].setWidth 64 else 0)
      | .ok .readStatus => t.resp = some (statusWord s)
      | .ok _ => t.resp = some 0
      | .error _ => t.resp = some 0
    | .seq _ => t.resp = none
    | .reset => t.resp = none

/-- R67: READ_FRAME of a frame and READ_STATUS change nothing but the response, and a second one answers the same word. -/
def Obligations.ReadsHaveNoSideEffects : Prop :=
  ∀ s : State,
    (∃ v, exec .readStatus s = .next { s with resp := some v } ∧
      exec .readStatus { s with resp := some v } = .next { s with resp := some v }) ∧
    (∀ idx, s.frameValid = true → ∃ v, exec (.readFrame idx) s = .next { s with resp := some v } ∧
      exec (.readFrame idx) { s with resp := some v } = .next { s with resp := some v })

/-! ### The frame encoder -/

/-- R133: the Power byte. BUILD takes it from its power operand, SEND is always PowerOn (the spec's
decision D11), POWER_OFF always PowerOff. -/
def Obligations.PowerByteFollowsTheCommand : Prop :=
  ∀ (pwr : PowerMode) (st : Settings) (s : State), s.phase = .idle →
    (∃ t, exec (.build pwr st) s = .next t ∧ t.frame[Config.params.fieldPos .power] = Config.params.raw.powerCode pwr) ∧
    (∃ t, exec (.send st) s = .next t ∧ t.frame[Config.params.fieldPos .power] = Config.params.raw.powerCode .powerOn) ∧
    (∃ t, exec .powerOff s = .next t ∧ t.frame[Config.params.fieldPos .power] = Config.params.raw.powerCode .powerOff)

/-- R134, R136 and R137: the three bytes that OR two codes. -/
def Obligations.CodeBytesAreOred : Prop :=
  ∀ (p : Params) (pwr : PowerMode) (st : Settings) (h : BitVec 5) (m : BitVec 6),
    (encodeFrame p pwr st h m)[p.fieldPos .climateAndISee] = p.raw.climate1 st.climate ||| p.raw.iseeCode st.isee ∧
    (encodeFrame p pwr st h m)[p.fieldPos .climateAndHorizontalVanne]
      = p.raw.climate2 st.climate ||| p.raw.hvCode st.hvane ∧
    (encodeFrame p pwr st h m)[p.fieldPos .fanAndVerticalVanne] = p.raw.fanCode st.fan ||| p.raw.vvCode st.vvane

/-- R135: the Temperature byte, for every TEMP field read as two's complement. -/
def Obligations.TemperatureByteIsClamped : Prop :=
  ∀ (p : Params) (pwr : PowerMode) (st : Settings) (h : BitVec 5) (m : BitVec 6),
    let b := (encodeFrame p pwr st h m)[p.fieldPos .temperature].toNat
    (st.temperature.toInt ≤ 16 → b = 0) ∧ (31 ≤ st.temperature.toInt → b = 15) ∧
    (16 < st.temperature.toInt → st.temperature.toInt < 31 → (b : Int) = st.temperature.toInt - 16) ∧ b ≤ 15

/-- R109 and R139 with the Clock byte: each time byte is the bucket `h * (m // 10)` untruncated, 0 for an absent time; at most
115 for a legal time and at most 186 for raw time-of-day ports. -/
def Obligations.TimeBytesAreBuckets : Prop :=
  ∀ (p : Params) (pwr : PowerMode) (st : Settings) (h : BitVec 5) (m : BitVec 6),
    let f := encodeFrame p pwr st h m
    f[p.fieldPos .clock].toNat = h.toNat * (m.toNat / 10) ∧ f[p.fieldPos .clock].toNat ≤ 186 ∧
    (st.stop = none → f[p.fieldPos .endTime].toNat = 0) ∧
    (∀ t, st.stop = some t →
      f[p.fieldPos .endTime].toNat = t.hour.val * (t.minute.val / 10) ∧ f[p.fieldPos .endTime].toNat ≤ 115) ∧
    (st.start = none → f[p.fieldPos .startTime].toNat = 0) ∧
    (∀ t, st.start = some t →
      f[p.fieldPos .startTime].toNat = t.hour.val * (t.minute.val / 10) ∧ f[p.fieldPos .startTime].toNat ≤ 115)

/-- R140 with the table of R108: the encoder's schedule mode follows from which times are present, and the byte that ORs its
code with the area's is 0x00 for every input. -/
def Obligations.ScheduleAndAreaByteIsZero : Prop :=
  ∀ (p : Params) (pwr : PowerMode) (st : Settings) (h : BitVec 5) (m : BitVec 6),
    (scheduleMode st.start st.stop =
      if st.start.isSome = true then (if st.stop.isSome = true then .both else .start)
      else (if st.stop.isSome = true then .stop else .none)) ∧
    (encodeFrame p pwr st h m)[p.fieldPos .timeControlAndArea]
      = p.raw.tcCode (scheduleMode st.start st.stop) ||| p.raw.areaCode st.area ∧
    (encodeFrame p pwr st h m)[p.fieldPos .timeControlAndArea] = 0

/-- R141: byte 17 is the sum of bytes 0..16 as they stand in the finished frame, modulo 256. -/
def Obligations.ChecksumByteSumsTheOthers : Prop :=
  ∀ (p : Params) (pwr : PowerMode) (st : Settings) (h : BitVec 5) (m : BitVec 6),
    let f := encodeFrame p pwr st h m
    f[(17 : FramePos)].toNat = (∑ i : Fin 17, f[i.castSucc].toNat) % 256

/-- R132: every position below 17 that is no field position keeps its TEMPLATE byte. -/
def Obligations.TemplateBytesAreKept : Prop :=
  ∀ (p : Params) (pwr : PowerMode) (st : Settings) (h : BitVec 5) (m : BitVec 6) (i : FramePos),
    i ≠ 17 → (∀ n, p.fieldPos n ≠ i) → (encodeFrame p pwr st h m)[i] = p.raw.template[i]

/-- The example of R211: where POWER_OFF_SETTINGS are the default settings, a power-off frame and the frame of default settings
with power on, built at the same time of day, agree at every position but Power and the checksum. -/
def Obligations.PowerOffFrameDiffersInTwoPlaces : Prop :=
  ∀ (p : Params) (h : BitVec 5) (m : BitVec 6) (i : FramePos), p.raw.powerOffSettings = Config.defaultSettings →
    i ≠ p.fieldPos .power → i ≠ 17 →
      (encodeFrame p .powerOff p.raw.powerOffSettings h m)[i] = (encodeFrame p .powerOn Config.defaultSettings h m)[i]

/-- R69: two BUILD words that are equal, accepted with the same time-of-day sample in whatever states, leave the same frame. -/
def Obligations.EqualBuildsGiveEqualFrames : Prop :=
  ∀ (s s' : State) (w : Word) (h : BitVec 5) (m : BitVec 6) (rest rest' : List Turn) (pwr : PowerMode) (st : Settings),
    s.turns = .host w h m :: rest → s'.turns = .host w h m :: rest' → decode Config.params w = .ok (.build pwr st) →
    s.phase = .idle → s'.phase = .idle →
      ∃ t t', step s = .next t ∧ step s' = .next t' ∧ t.frame = t'.frame ∧ t.frameValid = true ∧ t'.frameValid = true

/-- A command that builds no frame, and a command rejected because the sequencer is busy, does not read the time-of-day ports
(R257): with other levels on them it does the same. -/
def Obligations.OnlyBuildsReadTheTimeOfDay : Prop :=
  ∀ (i : Instr) (s t : State) (h : BitVec 5) (m : BitVec 6), (¬ BuildsFrame i ∨ s.phase ≠ .idle) → exec i s = .next t →
    exec i { s with todHour := h, todMinute := m } = .next { t with todHour := h, todMinute := m }

/-! ### The sequencer -/

/-- R172, R173, R174 and R176: the segment of each header, bit-mark and footer-mark phase, and where the sequencer goes when TX
answers ok. That a SEQ turn leaves the line and clears the response port is the model's choice (log entries 3 and 9). -/
def Obligations.MarkAndHeaderPhasesMoveOn : Prop :=
  ∀ (s : State) (rest : List Turn), s.turns = .seq .ok :: rest →
    (s.phase = .hdrMark → step s = .next { s with
      turns := rest, resp := none, out := s.out ++ [.seg ⟨.mark, Config.params.timing.hdrMark, 38000⟩], phase := .hdrSpace }) ∧
    (s.phase = .hdrSpace → step s = .next { s with
      turns := rest, resp := none, out := s.out ++ [.seg ⟨.space, Config.params.timing.hdrSpace, 0⟩],
      byteIdx := 0, bitIdx := 0, phase := .bitMark }) ∧
    (s.phase = .bitMark → step s = .next { s with
      turns := rest, resp := none, out := s.out ++ [.seg ⟨.mark, Config.params.timing.bitMark, 38000⟩], phase := .bitSpace }) ∧
    (s.phase = .ftrMark → step s = .next { s with
      turns := rest, resp := none, out := s.out ++ [.seg ⟨.mark, Config.params.timing.rptMark, 38000⟩], phase := .ftrSpace })

/-- R175: the space of the addressed bit, least-significant first, and the next bit, the next byte, or the footer. That the bytes
go in ascending order is the spec's own reading of its source (R62, decision D25). That a SEQ turn leaves the line and
clears the response port is the model's choice (log entries 3 and 9). -/
def Obligations.BitSpaceEmitsTheAddressedBit : Prop :=
  ∀ (s : State) (rest : List Turn), s.turns = .seq .ok :: rest → s.phase = .bitSpace → s.frameValid = true →
    let durUs := if s.frame[s.byteIdx].getLsbD s.bitIdx.val = true then Config.params.timing.oneSpace
      else Config.params.timing.zeroSpace
    let u : State := { s with turns := rest, resp := none, out := s.out ++ [.seg ⟨.space, durUs, 0⟩] }
    (s.bitIdx.val < 7 → ∃ j : Fin 8, j.val = s.bitIdx.val + 1 ∧ step s = .next { u with bitIdx := j, phase := .bitMark }) ∧
    (s.bitIdx.val = 7 → s.byteIdx.val < 17 → ∃ i : FramePos, i.val = s.byteIdx.val + 1 ∧
      step s = .next { u with byteIdx := i, bitIdx := 0, phase := .bitMark }) ∧
    (s.bitIdx.val = 7 → s.byteIdx.val = 17 → step s = .next { u with phase := .ftrMark })

/-- R177: the footer space, the repetition count, and the next repetition or the idle sequencer. That a SEQ turn leaves the
line and clears the response port is the model's choice (log entries 3 and 9). -/
def Obligations.FooterSpaceEndsTheRepetition : Prop :=
  ∀ (s : State) (rest : List Turn), s.turns = .seq .ok :: rest → s.phase = .ftrSpace →
    let u : State := { s with
      turns := rest, resp := none, out := s.out ++ [.seg ⟨.space, Config.params.timing.rptSpace, 0⟩],
      repDone := s.repDone + 1 }
    (s.repDone + 1 < s.repTotal → step s = .next { u with byteIdx := 0, bitIdx := 0, phase := .hdrMark }) ∧
    (¬ s.repDone + 1 < s.repTotal → step s = .next { u with phase := .idle })

/-- R178: when TX answers fail, the offered segment is logged as refused, ERR and TXINFO record the code, the sequencer is idle,
the position counters, FRAME and FRAME_VALID stay, and no further segment is on offer. That a SEQ turn leaves the line, clears
the response port and leaves the time-of-day ports is the model's choice (log entries 3, 9 and 12). -/
def Obligations.TransmitterFailureAborts : Prop :=
  ∀ (s : State) (rest : List Turn) (code : BitVec 8) (sg : Segment), s.turns = .seq (.fail code) :: rest →
    currentSegment Config.params s = .ok (some sg) →
      let t : State := { s with
        turns := rest, resp := none, out := s.out ++ [.txfail sg.level sg.durUs code],
        phase := .idle, err := .txFail, txinfo := code }
      step s = .next t ∧ currentSegment Config.params t = .ok none

/-- An idle sequencer has no step (R171); that its turn passes, with nothing done but the turn taken and the
response port cleared, is the model's choice (log entries 3, 4 and 9). -/
def Obligations.IdleSequencerTurnPasses : Prop :=
  ∀ (s : State) (a : TxAnswer) (rest : List Turn), s.turns = .seq a :: rest → s.phase = .idle →
    step s = .next { s with turns := rest, resp := none }

/-- A read of a frame byte while FRAME has no value faults (R45, R251): the sequencer at a bit space, in a state no run
reaches. -/
def Obligations.BitSpaceWithoutAFrameFaults : Prop :=
  ∀ (s : State) (a : TxAnswer) (rest : List Turn), s.turns = .seq a :: rest → s.phase = .bitSpace → s.frameValid = false →
    step s = .fault .frameHasNoValue

/-- R181: a repetition has 292 segments and a stream 292 n, marks and spaces alternating from a mark on. -/
def Obligations.StreamHas292AlternatingSegments : Prop :=
  ∀ (p : Params) (f : Frame) (n : Nat),
    (repetition p f).length = 292 ∧ (stream p f n).length = 292 * n ∧
    ∀ (k : Nat) (sg : Segment), (stream p f n)[k]? = some sg → (sg.level = .mark ↔ k % 2 = 0)

/-- R186: a repetition lasts DUR_REP(f), and a transmission n times that. -/
def Obligations.TransmissionDurationFormula : Prop :=
  ∀ (p : Params) (f : Frame) (n : Nat),
    totalDuration (repetition p f) = repetitionDuration p f ∧ totalDuration (stream p f n) = n * repetitionDuration p f

/-- R179: every segment the sequencer offers, and every segment a step adds to OUT, carries 38000 Hz if it is a mark and 0 if
it is a space. -/
def Obligations.MarksCarryTheCarrier : Prop :=
  (∀ (s : State) (sg : Segment), currentSegment Config.params s = .ok (some sg) →
    sg.carrierHz = (match sg.level with | .mark => 38000 | .space => 0)) ∧
  ∀ (s t : State) (sg : Segment), step s = .next t → .seg sg ∈ t.out → .seg sg ∉ s.out →
    sg.carrierHz = (match sg.level with | .mark => 38000 | .space => 0)

/-! ### Reset -/

/-- R44: the reset value of every field of S; FRAME has no value, so FRAME_VALID is 0; the output line is idle. -/
def Obligations.ResetStateValues : Prop :=
  State.reset.frameValid = false ∧ State.reset.phase = .idle ∧ State.reset.byteIdx = 0 ∧ State.reset.bitIdx = 0 ∧
    State.reset.repDone = 0 ∧ State.reset.repTotal = 0 ∧ State.reset.err = .none ∧ State.reset.txinfo = 0 ∧
    lineLevel State.reset = some .space

/-- R270 and R271: a reset in any state, a transmission in progress among them, gives the reset values, an idle line and one
`reset` entry in OUT, with nothing else logged. That a reset keeps the turns to come is the model's reading (DEDUCED, log entry
10). -/
def Obligations.ResetTurnRestoresTheResetState : Prop :=
  ∀ (s : State) (rest : List Turn), s.turns = .reset :: rest →
    ∃ t, step s = .next t ∧ t.frameValid = false ∧ t.phase = .idle ∧ t.byteIdx = 0 ∧ t.bitIdx = 0 ∧ t.repDone = 0 ∧
      t.repTotal = 0 ∧ t.err = .none ∧ t.txinfo = 0 ∧ t.out = s.out ++ [.reset] ∧ lineLevel t = some .space ∧
      t.turns = rest

/-! ### Who writes what -/

/-- R36: a step changes ERR only by a rejected or a clearing command, by a transmitter failure, or by a reset, and to the code
of that event. R36 names no reset; that a reset clears ERR is R44, R250 and R270, and that the two go together is the model's
reading (DEDUCED, log entry 13). -/
def Obligations.ErrorCodeHasFewWriters : Prop :=
  ∀ s t : State, step s = .next t → t.err ≠ s.err →
    (∃ w h m rest, s.turns = .host w h m :: rest ∧
      ((t.err = .illegalCmd ∧ IllegalWord Config.params w) ∨
       (∃ i, decode Config.params w = .ok i ∧
         ((t.err = .busy ∧ NeedsIdle i ∧ s.phase ≠ .idle) ∨ (t.err = .noFrame ∧ NeedsFrame i ∧ s.frameValid = false) ∨
          (t.err = .none ∧ i = .clearStatus))))) ∨
    (∃ code rest, s.turns = .seq (.fail code) :: rest ∧ t.err = .txFail ∧ s.phase ≠ .idle) ∨
    (∃ rest, s.turns = .reset :: rest ∧ t.err = .none)

/-- R37: a step changes TXINFO only by a transmitter failure, to its code, or by CLEAR_STATUS or a reset, to 0. R37
names no reset; that a reset clears TXINFO is R44 and R270, and that the two go together is the model's reading (DEDUCED, log
entry 13). -/
def Obligations.FailureInfoHasFewWriters : Prop :=
  ∀ s t : State, step s = .next t → t.txinfo ≠ s.txinfo →
    (∃ code rest, s.turns = .seq (.fail code) :: rest ∧ t.txinfo = code ∧ t.err = .txFail) ∨
    (∃ w h m rest, s.turns = .host w h m :: rest ∧ decode Config.params w = .ok .clearStatus ∧ t.txinfo = 0) ∨
    (∃ rest, s.turns = .reset :: rest ∧ t.txinfo = 0)

/-- R33 and R64: a step changes FRAME only by an accepted BUILD, SEND or POWER_OFF, which leaves a valid whole frame of ENCODE
of that command's own operands, or by a reset; and FRAME_VALID falls only by a reset. -/
def Obligations.FrameHasFewWriters : Prop :=
  ∀ s t : State, step s = .next t →
    (t.frame = s.frame ∧ t.frameValid = s.frameValid) ∨
    (∃ w h m rest i pwr st, s.turns = .host w h m :: rest ∧ decode Config.params w = .ok i ∧
      (i = .build pwr st ∨ (i = .send st ∧ pwr = .powerOn) ∨
        (i = .powerOff ∧ pwr = .powerOff ∧ st = Config.params.raw.powerOffSettings)) ∧
      s.phase = .idle ∧ t.frame = encodeFrame Config.params pwr st h m ∧ t.frameValid = true) ∨
    (∃ rest, s.turns = .reset :: rest ∧ t.frameValid = false)

/-- R40: OUT is append-only: a step adds nothing, or one entry that its own turn explains. -/
def Obligations.OutIsAppendOnly : Prop :=
  ∀ s t : State, step s = .next t →
    t.out = s.out ∨
    (∃ sg rest, s.turns = .seq .ok :: rest ∧ t.out = s.out ++ [.seg sg]) ∨
    (∃ level durUs code rest, s.turns = .seq (.fail code) :: rest ∧ t.out = s.out ++ [.txfail level durUs code]) ∨
    (∃ rest, s.turns = .reset :: rest ∧ t.out = s.out ++ [.reset])

/-- R71: while a transmission is in progress, a step that is no reset leaves FRAME as it is. -/
def Obligations.TransmissionSeesAConstantFrame : Prop :=
  ∀ (s t : State) (turn : Turn) (rest : List Turn), s.phase ≠ .idle → s.turns = turn :: rest → turn ≠ .reset →
    step s = .next t → t.frame = s.frame ∧ t.frameValid = s.frameValid

/-! ### Invariants and whole runs -/

/-- The reset state meets the invariant, whatever turns are lined up. -/
def Obligations.ResetMeetsTheInvariant : Prop := ∀ turns : List Turn, Inv { State.reset with turns := turns }

/-- Every step keeps the invariant. -/
def Obligations.StepKeepsTheInvariant : Prop := ∀ s t : State, Inv s → step s = .next t → Inv t

/-- From a state that meets the invariant every run of any length is safe, and ends in a state that meets it (R45, R251). -/
def Obligations.InvariantRunsNeverStop : Prop :=
  ∀ (k : Nat) (s : State), Inv s → ∃ t, run k s = .next t ∧ Inv t

/-- R46: after any turns whatever from reset, a valid frame has its checksum, its template bytes, zero reserved bytes and a
Temperature byte of at most 15. -/
def Obligations.ValidFramesMeetTheirInvariants : Prop :=
  ∀ (turns : List Turn) (k : Nat) (t : State),
    run k { State.reset with turns := turns } = .next t → t.frameValid = true →
      t.frame[(17 : FramePos)].toNat = (∑ i : Fin 17, t.frame[i.castSucc].toNat) % 256 ∧
      (∀ i : FramePos, i ≠ 17 → (∀ n, Config.params.fieldPos n ≠ i) → t.frame[i] = Config.params.raw.template[i]) ∧
      (∀ i : FramePos, i.val ∈ Config.params.raw.reserved → t.frame[i] = 0) ∧
      t.frame[Config.params.fieldPos .temperature].toNat ≤ 15

/-- R180: a transmission of frame f with n repetitions, TX answering ok, appends exactly STREAM(f, n) to OUT, returns to IDLE
and changes nothing else but its counters; if TX fails at a segment, OUT gets the segments before it and one `txfail` entry,
and the sequencer is IDLE with ERR = TX_FAIL. It rests on the spec's decisions D25 (byte order) and D15 (TX answers every
segment). That the SEQ turns leave the line and clear the response port is the model's choice (log entries 3 and 9). -/
def Obligations.TransmissionEmitsItsStream : Prop :=
  ∀ (n : BitVec 8) (s : State) (rest : List Turn), AtStart n s →
    (s.turns = List.replicate (292 * n.toNat) (.seq .ok) ++ rest →
      run (292 * n.toNat) s = .next { s with
        turns := rest, resp := none, out := s.out ++ segEntries (stream Config.params s.frame n.toNat),
        phase := .idle, byteIdx := 17, bitIdx := 7, repDone := n }) ∧
    (∀ (k : Nat) (code : BitVec 8), k < 292 * n.toNat →
      s.turns = List.replicate k (.seq .ok) ++ .seq (.fail code) :: rest →
      ∃ (t : State) (sg : Segment), run (k + 1) s = .next t ∧
        (stream Config.params s.frame n.toNat)[k]? = some sg ∧
        t.out = s.out ++ segEntries ((stream Config.params s.frame n.toNat).take k)
          ++ [.txfail sg.level sg.durUs code] ∧
        t.phase = .idle ∧ t.err = .txFail ∧ t.txinfo = code ∧ t.frame = s.frame ∧ t.turns = rest)

/-- R73: whatever words HOST issues in between, k accepted SEQ turns of a transmission emit the first k segments of the stream
that was fixed when it started. It rests on the spec's decisions D25 (byte order) and D15 (TX answers every segment). -/
def Obligations.HostCommandsLeaveTheStreamAlone : Prop :=
  ∀ (n : BitVec 8) (s : State) (ts rest : List Turn), AtStart n s → s.turns = ts ++ rest →
    ts.all Turn.harmless = true → ts.countP Turn.isSeq ≤ 292 * n.toNat →
      ∃ t, run ts.length s = .next t ∧ t.turns = rest ∧
        t.out = s.out ++ segEntries ((stream Config.params s.frame n.toNat).take (ts.countP Turn.isSeq))

/-- R210 and R180 together: a SEND word on an idle block, then SEQ turns that TX accepts, put exactly two repetitions of the
encoded power-on frame on the line and leave the block idle with that frame. It rests on the spec's decisions D11 (power on),
D25 (byte order) and D15 (TX answers every segment). -/
def Obligations.SendEmitsItsFrameTwice : Prop :=
  ∀ (s : State) (w : Word) (h : BitVec 5) (m : BitVec 6) (rest : List Turn) (st : Settings), s.phase = .idle →
    decode Config.params w = .ok (.send st) → s.turns = .host w h m :: (List.replicate 584 (.seq .ok) ++ rest) →
      ∃ t, run 585 s = .next t ∧ t.phase = .idle ∧ t.turns = rest ∧ t.err = s.err ∧
        t.frame = encodeFrame Config.params .powerOn st h m ∧ t.frameValid = true ∧
        t.out = s.out ++ segEntries (repetition Config.params (encodeFrame Config.params .powerOn st h m)
          ++ repetition Config.params (encodeFrame Config.params .powerOn st h m))

/-! ### Parameters and assembler -/

/-- R9: a parameter record is given a meaning exactly when all eight named checks hold of it. -/
def Obligations.ParameterChecksDecideMeaning : Prop :=
  ∀ r : RawParams, (∃ p, r.check = .ok p ∧ p.raw = r) ↔
    (Function.Injective r.fieldIndex ∧ (∀ n, r.fieldIndex n ≤ 16) ∧
      (∀ i ∈ r.reserved, i ≤ 16 ∧ ∀ n, r.fieldIndex n ≠ i) ∧
      (∀ i : FramePos, i.val ∈ r.reserved → r.template[i] = 0) ∧
      (3 ≤ r.nFanSpeeds ∧ r.nFanSpeeds ≤ 6 ∧ r.nVV ≤ 7 ∧ r.nHV ≤ 7 ∧ r.nArea ≤ 3) ∧
      r.iseeCode .notApplicable = 0 ∧ ((∀ a, r.areaCode a = 0) ∧ ∀ t, r.tcCode t = 0) ∧
      r.powerOffSettings.climate = .auto)

/-- R114: the assembler never emits an illegal word: what it emits decodes to the command of the line. -/
def Obligations.AssemblerEmitsLegalWords : Prop :=
  ∀ (p : Params) (line : Token) (w : Word), assemble p line = some w →
    ∃ i, commandOfLine line = some i ∧ decode p w = .ok i ∧ ¬ IllegalWord p w
end

