-- ==== Sys2Proof/Laws/State.lean ====
section
/-! SUPPORT. One lemma per field per update of the state, true by rfl, so that no later proof unfolds a record update. -/

namespace Sys2Proof.Laws

open Sys2Proof.Machine

/-! ### respond -/

@[simp] theorem respond_frame (v : Word) (s : State) : (respond v s).frame = s.frame := rfl
@[simp] theorem respond_frameValid (v : Word) (s : State) : (respond v s).frameValid = s.frameValid := rfl
@[simp] theorem respond_phase (v : Word) (s : State) : (respond v s).phase = s.phase := rfl
@[simp] theorem respond_byteIdx (v : Word) (s : State) : (respond v s).byteIdx = s.byteIdx := rfl
@[simp] theorem respond_bitIdx (v : Word) (s : State) : (respond v s).bitIdx = s.bitIdx := rfl
@[simp] theorem respond_repDone (v : Word) (s : State) : (respond v s).repDone = s.repDone := rfl
@[simp] theorem respond_repTotal (v : Word) (s : State) : (respond v s).repTotal = s.repTotal := rfl
@[simp] theorem respond_err (v : Word) (s : State) : (respond v s).err = s.err := rfl
@[simp] theorem respond_txinfo (v : Word) (s : State) : (respond v s).txinfo = s.txinfo := rfl
@[simp] theorem respond_todHour (v : Word) (s : State) : (respond v s).todHour = s.todHour := rfl
@[simp] theorem respond_todMinute (v : Word) (s : State) : (respond v s).todMinute = s.todMinute := rfl
@[simp] theorem respond_resp (v : Word) (s : State) : (respond v s).resp = some v := rfl
@[simp] theorem respond_out (v : Word) (s : State) : (respond v s).out = s.out := rfl
@[simp] theorem respond_turns (v : Word) (s : State) : (respond v s).turns = s.turns := rfl

/-! ### reject -/

@[simp] theorem reject_frame (e : ErrCode) (s : State) : (reject e s).frame = s.frame := rfl
@[simp] theorem reject_frameValid (e : ErrCode) (s : State) : (reject e s).frameValid = s.frameValid := rfl
@[simp] theorem reject_phase (e : ErrCode) (s : State) : (reject e s).phase = s.phase := rfl
@[simp] theorem reject_byteIdx (e : ErrCode) (s : State) : (reject e s).byteIdx = s.byteIdx := rfl
@[simp] theorem reject_bitIdx (e : ErrCode) (s : State) : (reject e s).bitIdx = s.bitIdx := rfl
@[simp] theorem reject_repDone (e : ErrCode) (s : State) : (reject e s).repDone = s.repDone := rfl
@[simp] theorem reject_repTotal (e : ErrCode) (s : State) : (reject e s).repTotal = s.repTotal := rfl
@[simp] theorem reject_err (e : ErrCode) (s : State) : (reject e s).err = e := rfl
@[simp] theorem reject_txinfo (e : ErrCode) (s : State) : (reject e s).txinfo = s.txinfo := rfl
@[simp] theorem reject_todHour (e : ErrCode) (s : State) : (reject e s).todHour = s.todHour := rfl
@[simp] theorem reject_todMinute (e : ErrCode) (s : State) : (reject e s).todMinute = s.todMinute := rfl
@[simp] theorem reject_resp (e : ErrCode) (s : State) : (reject e s).resp = some 0 := rfl
@[simp] theorem reject_out (e : ErrCode) (s : State) : (reject e s).out = s.out := rfl
@[simp] theorem reject_turns (e : ErrCode) (s : State) : (reject e s).turns = s.turns := rfl

/-! ### commitFrame -/

@[simp] theorem commitFrame_frame (f : Frame) (s : State) : (commitFrame f s).frame = f := rfl
@[simp] theorem commitFrame_frameValid (f : Frame) (s : State) : (commitFrame f s).frameValid = true := rfl
@[simp] theorem commitFrame_phase (f : Frame) (s : State) : (commitFrame f s).phase = s.phase := rfl
@[simp] theorem commitFrame_byteIdx (f : Frame) (s : State) : (commitFrame f s).byteIdx = s.byteIdx := rfl
@[simp] theorem commitFrame_bitIdx (f : Frame) (s : State) : (commitFrame f s).bitIdx = s.bitIdx := rfl
@[simp] theorem commitFrame_repDone (f : Frame) (s : State) : (commitFrame f s).repDone = s.repDone := rfl
@[simp] theorem commitFrame_repTotal (f : Frame) (s : State) : (commitFrame f s).repTotal = s.repTotal := rfl
@[simp] theorem commitFrame_err (f : Frame) (s : State) : (commitFrame f s).err = s.err := rfl
@[simp] theorem commitFrame_txinfo (f : Frame) (s : State) : (commitFrame f s).txinfo = s.txinfo := rfl
@[simp] theorem commitFrame_todHour (f : Frame) (s : State) : (commitFrame f s).todHour = s.todHour := rfl
@[simp] theorem commitFrame_todMinute (f : Frame) (s : State) : (commitFrame f s).todMinute = s.todMinute := rfl
@[simp] theorem commitFrame_resp (f : Frame) (s : State) : (commitFrame f s).resp = s.resp := rfl
@[simp] theorem commitFrame_out (f : Frame) (s : State) : (commitFrame f s).out = s.out := rfl
@[simp] theorem commitFrame_turns (f : Frame) (s : State) : (commitFrame f s).turns = s.turns := rfl

/-! ### logSegment -/

@[simp] theorem logSegment_frame (sg : Segment) (s : State) : (logSegment sg s).frame = s.frame := rfl
@[simp] theorem logSegment_frameValid (sg : Segment) (s : State) : (logSegment sg s).frameValid = s.frameValid := rfl
@[simp] theorem logSegment_phase (sg : Segment) (s : State) : (logSegment sg s).phase = s.phase := rfl
@[simp] theorem logSegment_byteIdx (sg : Segment) (s : State) : (logSegment sg s).byteIdx = s.byteIdx := rfl
@[simp] theorem logSegment_bitIdx (sg : Segment) (s : State) : (logSegment sg s).bitIdx = s.bitIdx := rfl
@[simp] theorem logSegment_repDone (sg : Segment) (s : State) : (logSegment sg s).repDone = s.repDone := rfl
@[simp] theorem logSegment_repTotal (sg : Segment) (s : State) : (logSegment sg s).repTotal = s.repTotal := rfl
@[simp] theorem logSegment_err (sg : Segment) (s : State) : (logSegment sg s).err = s.err := rfl
@[simp] theorem logSegment_txinfo (sg : Segment) (s : State) : (logSegment sg s).txinfo = s.txinfo := rfl
@[simp] theorem logSegment_todHour (sg : Segment) (s : State) : (logSegment sg s).todHour = s.todHour := rfl
@[simp] theorem logSegment_todMinute (sg : Segment) (s : State) : (logSegment sg s).todMinute = s.todMinute := rfl
@[simp] theorem logSegment_resp (sg : Segment) (s : State) : (logSegment sg s).resp = s.resp := rfl
@[simp] theorem logSegment_out (sg : Segment) (s : State) : (logSegment sg s).out = s.out ++ [.seg sg] := rfl
@[simp] theorem logSegment_turns (sg : Segment) (s : State) : (logSegment sg s).turns = s.turns := rfl

/-! ### logTxFail -/

@[simp] theorem logTxFail_frame (sg : Segment) (c : BitVec 8) (s : State) : (logTxFail sg c s).frame = s.frame := rfl
@[simp] theorem logTxFail_frameValid (sg : Segment) (c : BitVec 8) (s : State) : (logTxFail sg c s).frameValid = s.frameValid := rfl
@[simp] theorem logTxFail_phase (sg : Segment) (c : BitVec 8) (s : State) : (logTxFail sg c s).phase = s.phase := rfl
@[simp] theorem logTxFail_byteIdx (sg : Segment) (c : BitVec 8) (s : State) : (logTxFail sg c s).byteIdx = s.byteIdx := rfl
@[simp] theorem logTxFail_bitIdx (sg : Segment) (c : BitVec 8) (s : State) : (logTxFail sg c s).bitIdx = s.bitIdx := rfl
@[simp] theorem logTxFail_repDone (sg : Segment) (c : BitVec 8) (s : State) : (logTxFail sg c s).repDone = s.repDone := rfl
@[simp] theorem logTxFail_repTotal (sg : Segment) (c : BitVec 8) (s : State) : (logTxFail sg c s).repTotal = s.repTotal := rfl
@[simp] theorem logTxFail_err (sg : Segment) (c : BitVec 8) (s : State) : (logTxFail sg c s).err = s.err := rfl
@[simp] theorem logTxFail_txinfo (sg : Segment) (c : BitVec 8) (s : State) : (logTxFail sg c s).txinfo = s.txinfo := rfl
@[simp] theorem logTxFail_todHour (sg : Segment) (c : BitVec 8) (s : State) : (logTxFail sg c s).todHour = s.todHour := rfl
@[simp] theorem logTxFail_todMinute (sg : Segment) (c : BitVec 8) (s : State) : (logTxFail sg c s).todMinute = s.todMinute := rfl
@[simp] theorem logTxFail_resp (sg : Segment) (c : BitVec 8) (s : State) : (logTxFail sg c s).resp = s.resp := rfl
@[simp] theorem logTxFail_out (sg : Segment) (c : BitVec 8) (s : State) : (logTxFail sg c s).out = s.out ++ [.txfail sg.level sg.durUs c] := rfl
@[simp] theorem logTxFail_turns (sg : Segment) (c : BitVec 8) (s : State) : (logTxFail sg c s).turns = s.turns := rfl

/-! ### abortTransmission -/

@[simp] theorem abortTransmission_frame (c : BitVec 8) (s : State) : (abortTransmission c s).frame = s.frame := rfl
@[simp] theorem abortTransmission_frameValid (c : BitVec 8) (s : State) : (abortTransmission c s).frameValid = s.frameValid := rfl
@[simp] theorem abortTransmission_phase (c : BitVec 8) (s : State) : (abortTransmission c s).phase = .idle := rfl
@[simp] theorem abortTransmission_byteIdx (c : BitVec 8) (s : State) : (abortTransmission c s).byteIdx = s.byteIdx := rfl
@[simp] theorem abortTransmission_bitIdx (c : BitVec 8) (s : State) : (abortTransmission c s).bitIdx = s.bitIdx := rfl
@[simp] theorem abortTransmission_repDone (c : BitVec 8) (s : State) : (abortTransmission c s).repDone = s.repDone := rfl
@[simp] theorem abortTransmission_repTotal (c : BitVec 8) (s : State) : (abortTransmission c s).repTotal = s.repTotal := rfl
@[simp] theorem abortTransmission_err (c : BitVec 8) (s : State) : (abortTransmission c s).err = .txFail := rfl
@[simp] theorem abortTransmission_txinfo (c : BitVec 8) (s : State) : (abortTransmission c s).txinfo = c := rfl
@[simp] theorem abortTransmission_todHour (c : BitVec 8) (s : State) : (abortTransmission c s).todHour = s.todHour := rfl
@[simp] theorem abortTransmission_todMinute (c : BitVec 8) (s : State) : (abortTransmission c s).todMinute = s.todMinute := rfl
@[simp] theorem abortTransmission_resp (c : BitVec 8) (s : State) : (abortTransmission c s).resp = s.resp := rfl
@[simp] theorem abortTransmission_out (c : BitVec 8) (s : State) : (abortTransmission c s).out = s.out := rfl
@[simp] theorem abortTransmission_turns (c : BitVec 8) (s : State) : (abortTransmission c s).turns = s.turns := rfl

/-! ### clearErrors -/

@[simp] theorem clearErrors_frame (s : State) : (clearErrors s).frame = s.frame := rfl
@[simp] theorem clearErrors_frameValid (s : State) : (clearErrors s).frameValid = s.frameValid := rfl
@[simp] theorem clearErrors_phase (s : State) : (clearErrors s).phase = s.phase := rfl
@[simp] theorem clearErrors_byteIdx (s : State) : (clearErrors s).byteIdx = s.byteIdx := rfl
@[simp] theorem clearErrors_bitIdx (s : State) : (clearErrors s).bitIdx = s.bitIdx := rfl
@[simp] theorem clearErrors_repDone (s : State) : (clearErrors s).repDone = s.repDone := rfl
@[simp] theorem clearErrors_repTotal (s : State) : (clearErrors s).repTotal = s.repTotal := rfl
@[simp] theorem clearErrors_err (s : State) : (clearErrors s).err = .none := rfl
@[simp] theorem clearErrors_txinfo (s : State) : (clearErrors s).txinfo = 0 := rfl
@[simp] theorem clearErrors_todHour (s : State) : (clearErrors s).todHour = s.todHour := rfl
@[simp] theorem clearErrors_todMinute (s : State) : (clearErrors s).todMinute = s.todMinute := rfl
@[simp] theorem clearErrors_resp (s : State) : (clearErrors s).resp = s.resp := rfl
@[simp] theorem clearErrors_out (s : State) : (clearErrors s).out = s.out := rfl
@[simp] theorem clearErrors_turns (s : State) : (clearErrors s).turns = s.turns := rfl

/-! ### resetBlock -/

@[simp] theorem resetBlock_frame (s : State) : (resetBlock s).frame = State.reset.frame := rfl
@[simp] theorem resetBlock_frameValid (s : State) : (resetBlock s).frameValid = false := rfl
@[simp] theorem resetBlock_phase (s : State) : (resetBlock s).phase = .idle := rfl
@[simp] theorem resetBlock_byteIdx (s : State) : (resetBlock s).byteIdx = 0 := rfl
@[simp] theorem resetBlock_bitIdx (s : State) : (resetBlock s).bitIdx = 0 := rfl
@[simp] theorem resetBlock_repDone (s : State) : (resetBlock s).repDone = 0 := rfl
@[simp] theorem resetBlock_repTotal (s : State) : (resetBlock s).repTotal = 0 := rfl
@[simp] theorem resetBlock_err (s : State) : (resetBlock s).err = .none := rfl
@[simp] theorem resetBlock_txinfo (s : State) : (resetBlock s).txinfo = 0 := rfl
@[simp] theorem resetBlock_todHour (s : State) : (resetBlock s).todHour = s.todHour := rfl
@[simp] theorem resetBlock_todMinute (s : State) : (resetBlock s).todMinute = s.todMinute := rfl
@[simp] theorem resetBlock_resp (s : State) : (resetBlock s).resp = none := rfl
@[simp] theorem resetBlock_out (s : State) : (resetBlock s).out = s.out ++ [.reset] := rfl
@[simp] theorem resetBlock_turns (s : State) : (resetBlock s).turns = s.turns := rfl

/-! ### lineUpCommand -/

@[simp] theorem lineUpCommand_frame (w : Word) (s : State) : (lineUpCommand w s).frame = s.frame := rfl
@[simp] theorem lineUpCommand_frameValid (w : Word) (s : State) : (lineUpCommand w s).frameValid = s.frameValid := rfl
@[simp] theorem lineUpCommand_phase (w : Word) (s : State) : (lineUpCommand w s).phase = s.phase := rfl
@[simp] theorem lineUpCommand_byteIdx (w : Word) (s : State) : (lineUpCommand w s).byteIdx = s.byteIdx := rfl
@[simp] theorem lineUpCommand_bitIdx (w : Word) (s : State) : (lineUpCommand w s).bitIdx = s.bitIdx := rfl
@[simp] theorem lineUpCommand_repDone (w : Word) (s : State) : (lineUpCommand w s).repDone = s.repDone := rfl
@[simp] theorem lineUpCommand_repTotal (w : Word) (s : State) : (lineUpCommand w s).repTotal = s.repTotal := rfl
@[simp] theorem lineUpCommand_err (w : Word) (s : State) : (lineUpCommand w s).err = s.err := rfl
@[simp] theorem lineUpCommand_txinfo (w : Word) (s : State) : (lineUpCommand w s).txinfo = s.txinfo := rfl
@[simp] theorem lineUpCommand_todHour (w : Word) (s : State) : (lineUpCommand w s).todHour = s.todHour := rfl
@[simp] theorem lineUpCommand_todMinute (w : Word) (s : State) : (lineUpCommand w s).todMinute = s.todMinute := rfl
@[simp] theorem lineUpCommand_resp (w : Word) (s : State) : (lineUpCommand w s).resp = s.resp := rfl
@[simp] theorem lineUpCommand_out (w : Word) (s : State) : (lineUpCommand w s).out = s.out := rfl
@[simp] theorem lineUpCommand_turns (w : Word) (s : State) : (lineUpCommand w s).turns = .host w s.todHour s.todMinute :: s.turns := rfl

/-! ### buildFrame: a commit of the encoded frame -/

@[simp] theorem buildFrame_frame (p : Params) (pwr : PowerMode) (st : Settings) (s : State) :
    (buildFrame p pwr st s).frame = encodeFrame p pwr st s.todHour s.todMinute := rfl
@[simp] theorem buildFrame_frameValid (p : Params) (pwr : PowerMode) (st : Settings) (s : State) :
    (buildFrame p pwr st s).frameValid = true := rfl
@[simp] theorem buildFrame_phase (p : Params) (pwr : PowerMode) (st : Settings) (s : State) :
    (buildFrame p pwr st s).phase = s.phase := rfl
@[simp] theorem buildFrame_byteIdx (p : Params) (pwr : PowerMode) (st : Settings) (s : State) :
    (buildFrame p pwr st s).byteIdx = s.byteIdx := rfl
@[simp] theorem buildFrame_bitIdx (p : Params) (pwr : PowerMode) (st : Settings) (s : State) :
    (buildFrame p pwr st s).bitIdx = s.bitIdx := rfl
@[simp] theorem buildFrame_repDone (p : Params) (pwr : PowerMode) (st : Settings) (s : State) :
    (buildFrame p pwr st s).repDone = s.repDone := rfl
@[simp] theorem buildFrame_repTotal (p : Params) (pwr : PowerMode) (st : Settings) (s : State) :
    (buildFrame p pwr st s).repTotal = s.repTotal := rfl
@[simp] theorem buildFrame_err (p : Params) (pwr : PowerMode) (st : Settings) (s : State) :
    (buildFrame p pwr st s).err = s.err := rfl
@[simp] theorem buildFrame_txinfo (p : Params) (pwr : PowerMode) (st : Settings) (s : State) :
    (buildFrame p pwr st s).txinfo = s.txinfo := rfl
@[simp] theorem buildFrame_todHour (p : Params) (pwr : PowerMode) (st : Settings) (s : State) :
    (buildFrame p pwr st s).todHour = s.todHour := rfl
@[simp] theorem buildFrame_todMinute (p : Params) (pwr : PowerMode) (st : Settings) (s : State) :
    (buildFrame p pwr st s).todMinute = s.todMinute := rfl
@[simp] theorem buildFrame_resp (p : Params) (pwr : PowerMode) (st : Settings) (s : State) :
    (buildFrame p pwr st s).resp = s.resp := rfl
@[simp] theorem buildFrame_out (p : Params) (pwr : PowerMode) (st : Settings) (s : State) :
    (buildFrame p pwr st s).out = s.out := rfl
@[simp] theorem buildFrame_turns (p : Params) (pwr : PowerMode) (st : Settings) (s : State) :
    (buildFrame p pwr st s).turns = s.turns := rfl

/-! ### takeTurn: the turns and the response, and the ports of a HOST turn -/

@[simp] theorem takeTurn_frame (t : Turn) (rest : List Turn) (s : State) : (takeTurn t rest s).frame = s.frame := by
  cases t <;> rfl
@[simp] theorem takeTurn_frameValid (t : Turn) (rest : List Turn) (s : State) : (takeTurn t rest s).frameValid = s.frameValid := by
  cases t <;> rfl
@[simp] theorem takeTurn_phase (t : Turn) (rest : List Turn) (s : State) : (takeTurn t rest s).phase = s.phase := by
  cases t <;> rfl
@[simp] theorem takeTurn_byteIdx (t : Turn) (rest : List Turn) (s : State) : (takeTurn t rest s).byteIdx = s.byteIdx := by
  cases t <;> rfl
@[simp] theorem takeTurn_bitIdx (t : Turn) (rest : List Turn) (s : State) : (takeTurn t rest s).bitIdx = s.bitIdx := by
  cases t <;> rfl
@[simp] theorem takeTurn_repDone (t : Turn) (rest : List Turn) (s : State) : (takeTurn t rest s).repDone = s.repDone := by
  cases t <;> rfl
@[simp] theorem takeTurn_repTotal (t : Turn) (rest : List Turn) (s : State) : (takeTurn t rest s).repTotal = s.repTotal := by
  cases t <;> rfl
@[simp] theorem takeTurn_err (t : Turn) (rest : List Turn) (s : State) : (takeTurn t rest s).err = s.err := by
  cases t <;> rfl
@[simp] theorem takeTurn_txinfo (t : Turn) (rest : List Turn) (s : State) : (takeTurn t rest s).txinfo = s.txinfo := by
  cases t <;> rfl
@[simp] theorem takeTurn_resp (t : Turn) (rest : List Turn) (s : State) : (takeTurn t rest s).resp = none := by
  cases t <;> rfl
@[simp] theorem takeTurn_out (t : Turn) (rest : List Turn) (s : State) : (takeTurn t rest s).out = s.out := by
  cases t <;> rfl
@[simp] theorem takeTurn_turns (t : Turn) (rest : List Turn) (s : State) : (takeTurn t rest s).turns = rest := by
  cases t <;> rfl

@[simp] theorem takeTurn_host_todHour (w : Word) (h : BitVec 5) (m : BitVec 6) (rest : List Turn) (s : State) :
    (takeTurn (.host w h m) rest s).todHour = h := rfl
@[simp] theorem takeTurn_host_todMinute (w : Word) (h : BitVec 5) (m : BitVec 6) (rest : List Turn) (s : State) :
    (takeTurn (.host w h m) rest s).todMinute = m := rfl
@[simp] theorem takeTurn_seq_todHour (a : TxAnswer) (rest : List Turn) (s : State) :
    (takeTurn (.seq a) rest s).todHour = s.todHour := rfl
@[simp] theorem takeTurn_seq_todMinute (a : TxAnswer) (rest : List Turn) (s : State) :
    (takeTurn (.seq a) rest s).todMinute = s.todMinute := rfl
@[simp] theorem takeTurn_reset_todHour (rest : List Turn) (s : State) : (takeTurn .reset rest s).todHour = s.todHour := rfl
@[simp] theorem takeTurn_reset_todMinute (rest : List Turn) (s : State) : (takeTurn .reset rest s).todMinute = s.todMinute := rfl

/-! ### Fields START never writes -/

@[simp] theorem startTransmission_frame (n : BitVec 8) (s : State) : (startTransmission n s).frame = s.frame := by
  unfold startTransmission; split <;> rfl
@[simp] theorem startTransmission_frameValid (n : BitVec 8) (s : State) : (startTransmission n s).frameValid = s.frameValid := by
  unfold startTransmission; split <;> rfl
@[simp] theorem startTransmission_err (n : BitVec 8) (s : State) : (startTransmission n s).err = s.err := by
  unfold startTransmission; split <;> rfl
@[simp] theorem startTransmission_txinfo (n : BitVec 8) (s : State) : (startTransmission n s).txinfo = s.txinfo := by
  unfold startTransmission; split <;> rfl
@[simp] theorem startTransmission_todHour (n : BitVec 8) (s : State) : (startTransmission n s).todHour = s.todHour := by
  unfold startTransmission; split <;> rfl
@[simp] theorem startTransmission_todMinute (n : BitVec 8) (s : State) : (startTransmission n s).todMinute = s.todMinute := by
  unfold startTransmission; split <;> rfl
@[simp] theorem startTransmission_resp (n : BitVec 8) (s : State) : (startTransmission n s).resp = s.resp := by
  unfold startTransmission; split <;> rfl
@[simp] theorem startTransmission_out (n : BitVec 8) (s : State) : (startTransmission n s).out = s.out := by
  unfold startTransmission; split <;> rfl
@[simp] theorem startTransmission_turns (n : BitVec 8) (s : State) : (startTransmission n s).turns = s.turns := by
  unfold startTransmission; split <;> rfl

/-! ### Fields ADVANCE never writes -/

@[simp] theorem advance_frame (s : State) : (advance s).frame = s.frame := by
  unfold advance advanceBit advanceRepetition; repeat' split
  all_goals rfl
@[simp] theorem advance_frameValid (s : State) : (advance s).frameValid = s.frameValid := by
  unfold advance advanceBit advanceRepetition; repeat' split
  all_goals rfl
@[simp] theorem advance_repTotal (s : State) : (advance s).repTotal = s.repTotal := by
  unfold advance advanceBit advanceRepetition; repeat' split
  all_goals rfl
@[simp] theorem advance_err (s : State) : (advance s).err = s.err := by
  unfold advance advanceBit advanceRepetition; repeat' split
  all_goals rfl
@[simp] theorem advance_txinfo (s : State) : (advance s).txinfo = s.txinfo := by
  unfold advance advanceBit advanceRepetition; repeat' split
  all_goals rfl
@[simp] theorem advance_todHour (s : State) : (advance s).todHour = s.todHour := by
  unfold advance advanceBit advanceRepetition; repeat' split
  all_goals rfl
@[simp] theorem advance_todMinute (s : State) : (advance s).todMinute = s.todMinute := by
  unfold advance advanceBit advanceRepetition; repeat' split
  all_goals rfl
@[simp] theorem advance_resp (s : State) : (advance s).resp = s.resp := by
  unfold advance advanceBit advanceRepetition; repeat' split
  all_goals rfl
@[simp] theorem advance_out (s : State) : (advance s).out = s.out := by
  unfold advance advanceBit advanceRepetition; repeat' split
  all_goals rfl
@[simp] theorem advance_turns (s : State) : (advance s).turns = s.turns := by
  unfold advance advanceBit advanceRepetition; repeat' split
  all_goals rfl

end Sys2Proof.Laws
end

