-- ==== Sys2Proof/Laws/Encoder.lean ====
section
/-! SUPPORT. What writing the fields of a frame does to each position, and the field positions of well-formed parameters. -/

namespace Sys2Proof.Laws

open Sys2Proof.Machine

theorem fieldName_mem_all (n : FieldName) : n ∈ FieldName.all := by cases n <;> decide

theorem fieldName_all_nodup : FieldName.all.Nodup := by decide

/-- `wf_index_injective`: two fields never share a position (R9). -/
theorem fieldPos_inj (p : Params) {m n : FieldName} (h : p.fieldPos m = p.fieldPos n) : m = n := by
  have hd : (FieldName.all.map p.raw.fieldIndex).Nodup := of_decide_eq_true (p.passes .indexInjective)
  exact List.inj_on_of_nodup_map hd (fieldName_mem_all m) (fieldName_mem_all n) (congrArg Fin.val h)

/-- `wf_index_range`: no field sits at the checksum position (R9). -/
theorem fieldPos_ne_checksum (p : Params) (n : FieldName) : p.fieldPos n ≠ Config.checksumIndex := by
  intro h
  have h' : p.raw.fieldIndex n = 17 := congrArg Fin.val h
  have := of_decide_eq_true (List.all_eq_true.mp (p.passes .indexRange) n (fieldName_mem_all n))
  omega

/-- A position no written field has keeps its byte. -/
theorem writeFields_other (p : Params) (byteOf : FieldName → Byte) (i : FramePos) :
    ∀ (ns : List FieldName) (f : Frame), (∀ n ∈ ns, p.fieldPos n ≠ i) → (writeFields p byteOf f ns)[i] = f[i]
  | [], _, _ => rfl
  | n :: ns, f, h => by
    rw [writeFields, writeFields_other p byteOf i ns _ fun m hm => h m (List.mem_cons_of_mem n hm)]
    have hne : (p.fieldPos n).val ≠ i.val := fun e => h n List.mem_cons_self (Fin.ext e)
    simp [hne]

/-- Each written field's position holds that field's byte, whatever the order of the writes. -/
theorem writeFields_field (p : Params) (byteOf : FieldName → Byte) (n : FieldName) :
    ∀ (ns : List FieldName) (f : Frame), n ∈ ns → (writeFields p byteOf f ns)[p.fieldPos n] = byteOf n
  | [], _, h => absurd h List.not_mem_nil
  | m :: ns, f, h => by
    rw [writeFields]
    by_cases hn : n ∈ ns
    · exact writeFields_field p byteOf n ns _ hn
    · obtain rfl : n = m := by simpa [hn] using h
      rw [writeFields_other p byteOf _ ns _ fun k hk e => hn ((fieldPos_inj p e : k = n) ▸ hk)]
      simp

end Sys2Proof.Laws
end

