-- ==== Sys2Proof/Laws/Operands.lean ====
section
/-! SUPPORT. The bounds of the operand ordinals and the way back from each ordinal to its member, and the bound of the settings
fields of a format S word. -/

namespace Sys2Proof.Laws

theorem powerMode_ordinal_lt (m : PowerMode) : m.ordinal < 2 := by cases m <;> decide
theorem climateMode_ordinal_lt (m : ClimateMode) : m.ordinal < 4 := by cases m <;> decide
theorem fanMode_ordinal_lt (m : FanMode) : m.ordinal < 8 := by cases m <;> decide
theorem verticalVane_ordinal_lt (v : VerticalVane) : v.ordinal < 8 := by
  cases v with
  | auto => decide
  | pos k => have := k.isLt; simp only [VerticalVane.ordinal]; omega
theorem horizontalVane_ordinal_lt (v : HorizontalVane) : v.ordinal < 8 := by
  cases v with
  | notApplicable => decide
  | pos k => have := k.isLt; simp only [HorizontalVane.ordinal]; omega
theorem iseeMode_ordinal_lt (m : ISeeMode) : m.ordinal < 3 := by cases m <;> decide
theorem areaMode_ordinal_lt (m : AreaMode) : m.ordinal < 4 := by
  cases m with
  | notApplicable => decide
  | area k => have := k.isLt; simp only [AreaMode.ordinal]; omega

@[simp] theorem powerMode_ofOrdinal_ordinal (m : PowerMode) : PowerMode.ofOrdinal m.ordinal = m := by cases m <;> rfl
@[simp] theorem climateMode_ofOrdinal_ordinal (m : ClimateMode) : ClimateMode.ofOrdinal m.ordinal = m := by cases m <;> rfl
@[simp] theorem fanMode_ofOrdinal_ordinal (m : FanMode) : FanMode.ofOrdinal m.ordinal = m := by cases m <;> rfl
@[simp] theorem verticalVane_ofOrdinal_ordinal (v : VerticalVane) : VerticalVane.ofOrdinal v.ordinal = some v := by
  cases v <;> simp [VerticalVane.ordinal, VerticalVane.ofOrdinal]
@[simp] theorem horizontalVane_ofOrdinal_ordinal (v : HorizontalVane) : HorizontalVane.ofOrdinal v.ordinal = some v := by
  cases v <;> simp [HorizontalVane.ordinal, HorizontalVane.ofOrdinal]
@[simp] theorem iseeMode_ofOrdinal_ordinal (m : ISeeMode) : ISeeMode.ofOrdinal m.ordinal = some m := by cases m <;> rfl
@[simp] theorem areaMode_ofOrdinal_ordinal (m : AreaMode) : AreaMode.ofOrdinal m.ordinal = some m := by
  cases m <;> simp [AreaMode.ordinal, AreaMode.ofOrdinal]

theorem timeFields_lt (t : Option TimeOfDay) :
    (timeFields t).1 < 2 ∧ (timeFields t).2.1 < 24 ∧ (timeFields t).2.2 < 60 := by
  cases t with
  | none => decide
  | some t => exact ⟨by simp [timeFields], t.hour.isLt, t.minute.isLt⟩

@[simp] theorem timeOfFields_timeFields (t : Option TimeOfDay) :
    timeOfFields (timeFields t).1 (timeFields t).2.1 (timeFields t).2.2 = some t := by
  cases t with
  | none => rfl
  | some t => simp [timeFields, timeOfFields]

/-- The settings fields of a format S word stay within bits 5 to 51 (R82). -/
theorem encodeSettings_lt (st : Settings) : encodeSettings st < 2 ^ 52 := by
  have h1 := climateMode_ordinal_lt st.climate
  have h2 := st.temperature.isLt
  have h3 := fanMode_ordinal_lt st.fan
  have h4 := verticalVane_ordinal_lt st.vvane
  have h5 := horizontalVane_ordinal_lt st.hvane
  have h6 := iseeMode_ordinal_lt st.isee
  have h7 := areaMode_ordinal_lt st.area
  have h8 := timeFields_lt st.start
  have h9 := timeFields_lt st.stop
  simp only [encodeSettings]
  omega

/-- The settings fields leave the opcode and PWR bits alone (R82). -/
theorem encodeSettings_mod (st : Settings) : encodeSettings st % 2 ^ 5 = 0 := by
  simp only [encodeSettings]
  omega

/-- A field of `width` bits at bit `lo`, with any bits below and above it, is read back from the number. -/
theorem field_of_parts {lo width low field : Nat} (hlow : low < 2 ^ lo) (hfield : field < 2 ^ width) (high : Nat) :
    (low + 2 ^ lo * (field + 2 ^ width * high)) / 2 ^ lo % 2 ^ width = field := by
  rw [Nat.add_mul_div_left _ _ (Nat.two_pow_pos lo), Nat.div_eq_of_lt hlow, Nat.zero_add, Nat.add_mul_mod_self_left,
    Nat.mod_eq_of_lt hfield]

/-- The way a bit field of a word is read from its number. -/
theorem bits_ofNat {n : Nat} (h : n < 2 ^ 64) (hi lo : Nat) :
    bits (BitVec.ofNat 64 n) hi lo = n / 2 ^ lo % 2 ^ (hi + 1 - lo) := by
  rw [bits, BitVec.toNat_ofNat, Nat.mod_eq_of_lt h]

end Sys2Proof.Laws
end

