-- ==== Sys2Proof/Laws/Ops.lean ====
section
/-! SUPPORT. One lemma per shared operation that says what it can do: the checks, the read of a frame byte, START, the segment
of each phase, the SEQ turn, and the step by its next turn. -/

namespace Sys2Proof.Laws

open Sys2Proof.Machine

/-! ### BUSY and the checks -/

@[simp] theorem busy_eq_false_iff (s : State) : s.busy = false ↔ s.phase = .idle := by simp [State.busy]

@[simp] theorem busy_eq_true_iff (s : State) : s.busy = true ↔ s.phase ≠ .idle := by simp [State.busy]

theorem whenIdle_of_idle {s : State} (h : s.phase = .idle) (run : State → Result) : whenIdle s run = run s := by
  simp [whenIdle, h]

theorem whenIdle_of_busy {s : State} (h : s.phase ≠ .idle) (run : State → Result) :
    whenIdle s run = .next (reject .busy s) := by
  simp [whenIdle, h]

/-- All a command that needs an idle sequencer can do. -/
theorem whenIdle_cases {s t : State} {run : State → Result} (h : whenIdle s run = .next t) :
    (s.phase = .idle ∧ run s = .next t) ∨ (s.phase ≠ .idle ∧ t = reject .busy s) := by
  by_cases hs : s.phase = .idle
  · exact .inl ⟨hs, whenIdle_of_idle hs run ▸ h⟩
  · rw [whenIdle_of_busy hs] at h
    cases h
    exact .inr ⟨hs, rfl⟩

theorem whenFrame_of_valid {s : State} (h : s.frameValid = true) (run : State → Result) : whenFrame s run = run s := by
  simp [whenFrame, h]

theorem whenFrame_of_invalid {s : State} (h : s.frameValid = false) (run : State → Result) :
    whenFrame s run = .next (reject .noFrame s) := by
  simp [whenFrame, h]

/-- All a command that needs a frame can do. -/
theorem whenFrame_cases {s t : State} {run : State → Result} (h : whenFrame s run = .next t) :
    (s.frameValid = true ∧ run s = .next t) ∨ (s.frameValid = false ∧ t = reject .noFrame s) := by
  cases hs : s.frameValid
  · rw [whenFrame_of_invalid hs] at h
    cases h
    exact .inr ⟨rfl, rfl⟩
  · exact .inl ⟨rfl, whenFrame_of_valid hs run ▸ h⟩

/-! ### The read of a frame byte, and START -/

theorem readFrameByte_of_valid {s : State} (h : s.frameValid = true) (i : FramePos) : readFrameByte s i = .ok s.frame[i] := by
  simp [readFrameByte, h]

theorem readFrameByte_of_invalid {s : State} (h : s.frameValid = false) (i : FramePos) :
    readFrameByte s i = .error .frameHasNoValue := by
  simp [readFrameByte, h]

@[simp] theorem startTransmission_zero (s : State) : startTransmission 0 s = s := by simp [startTransmission]

theorem startTransmission_of_ne {n : BitVec 8} (h : n ≠ 0) (s : State) :
    startTransmission n s = { s with repTotal := n, repDone := 0, byteIdx := 0, bitIdx := 0, phase := .hdrMark } :=
  if_neg h

/-! ### The segment of a phase -/

theorem currentSegment_idle (p : Params) {s : State} (h : s.phase = .idle) : currentSegment p s = .ok none := by
  simp [currentSegment, h]

theorem currentSegment_bitSpace (p : Params) {s : State} (h : s.phase = .bitSpace) (hv : s.frameValid = true) :
    currentSegment p s = .ok (some (bitSpaceSegment p (s.frame[s.byteIdx].getLsbD s.bitIdx.val))) := by
  simp [currentSegment, h, readFrameByte_of_valid hv]

/-- An active sequencer with a frame always has a segment to offer. -/
theorem currentSegment_exists (p : Params) {s : State} (h : s.phase ≠ .idle) (hv : s.frameValid = true) :
    ∃ sg, currentSegment p s = .ok (some sg) := by
  cases hp : s.phase with
  | idle => exact absurd hp h
  | bitSpace => exact ⟨_, currentSegment_bitSpace p hp hv⟩
  | hdrMark | hdrSpace | bitMark | ftrMark | ftrSpace => simp [currentSegment, hp]

/-- All a SEQ turn can do when it answers a next state. -/
theorem seqTurn_cases {p : Params} {a : TxAnswer} {s t : State} (h : seqTurn p a s = .next t) :
    (s.phase = .idle ∧ t = s) ∨
    (s.phase ≠ .idle ∧ ∃ sg, currentSegment p s = .ok (some sg) ∧ t = answerSegment sg a s) := by
  unfold seqTurn at h
  split at h
  · rename_i hc
    refine .inl ⟨?_, by simpa using h.symm⟩
    cases hp : s.phase <;> simp_all [currentSegment]
    split at hc <;> simp_all
  · rename_i sg hc
    refine .inr ⟨?_, sg, hc, by simpa using h.symm⟩
    intro hp
    simp [currentSegment_idle p hp] at hc
  · cases h

/-! ### The step by its next turn -/

theorem step_of_no_turn {s : State} (h : s.turns = []) : step s = .next s := by simp [step, h]

theorem step_of_turn {s : State} {t : Turn} {rest : List Turn} (h : s.turns = t :: rest) :
    step s = runTurn t (takeTurn t rest s) := by
  simp [step, h]

theorem hostTurn_of_ok {w : Word} {i : Instr} (h : decode Config.params w = .ok i) (s : State) : hostTurn w s = exec i s := by
  simp [hostTurn, fetchCommand, h]

theorem hostTurn_of_error {w : Word} {e : Illegal} (h : decode Config.params w = .error e) (s : State) :
    hostTurn w s = .next (reject .illegalCmd s) := by
  simp [hostTurn, fetchCommand, h]

/-- All a step can do when it answers a next state: wait, a rejected word, a command, a SEQ turn, or a reset. -/
theorem step_cases {s t : State} (h : step s = .next t) :
    (s.turns = [] ∧ t = s) ∨
    (∃ w hour minute rest e, s.turns = .host w hour minute :: rest ∧ decode Config.params w = .error e ∧
      t = reject .illegalCmd (takeTurn (.host w hour minute) rest s)) ∨
    (∃ w hour minute rest i, s.turns = .host w hour minute :: rest ∧ decode Config.params w = .ok i ∧
      exec i (takeTurn (.host w hour minute) rest s) = .next t) ∨
    (∃ a rest, s.turns = .seq a :: rest ∧ seqTurn Config.params a (takeTurn (.seq a) rest s) = .next t) ∨
    (∃ rest, s.turns = .reset :: rest ∧ t = resetBlock (takeTurn .reset rest s)) := by
  cases ht : s.turns with
  | nil =>
    rw [step_of_no_turn ht] at h
    cases h
    exact .inl ⟨rfl, rfl⟩
  | cons turn rest =>
    rw [step_of_turn ht] at h
    cases turn with
    | host w hour minute =>
      cases hd : decode Config.params w with
      | error e =>
        rw [runTurn, hostTurn_of_error hd] at h
        cases h
        exact .inr (.inl ⟨w, hour, minute, rest, e, rfl, hd, rfl⟩)
      | ok i =>
        rw [runTurn, hostTurn_of_ok hd] at h
        exact .inr (.inr (.inl ⟨w, hour, minute, rest, i, rfl, hd, h⟩))
    | seq a => exact .inr (.inr (.inr (.inl ⟨a, rest, rfl, h⟩)))
    | reset =>
      cases h
      exact .inr (.inr (.inr (.inr ⟨rest, rfl, rfl⟩)))

/-- All a command can do when it answers a next state, constructor by constructor. -/
theorem exec_cases {i : Instr} {s t : State} (h : exec i s = .next t) :
    (i = .nop ∧ t = respond 0 s) ∨
    (∃ pwr st, i = .build pwr st ∧ s.phase = .idle ∧ t = respond 0 (buildFrame Config.params pwr st s)) ∨
    (∃ rpt, i = .transmit rpt ∧ s.phase = .idle ∧ s.frameValid = true ∧ t = respond 0 (startTransmission rpt s)) ∨
    (∃ pwr st, s.phase = .idle ∧ t = respond 0 (buildAndSend Config.params pwr st s) ∧
      (i = .send st ∧ pwr = .powerOn ∨
        i = .powerOff ∧ pwr = .powerOff ∧ st = Config.params.raw.powerOffSettings)) ∨
    (∃ idx, i = .readFrame idx ∧ s.frameValid = true ∧ t = respond (s.frame[idx].setWidth 64) s) ∨
    (i = .readStatus ∧ t = respond (statusWord s) s) ∨
    (i = .clearStatus ∧ t = respond 0 (clearErrors s)) ∨
    (s.phase ≠ .idle ∧ t = reject .busy s ∧
      ((∃ pwr st, i = .build pwr st) ∨ (∃ rpt, i = .transmit rpt) ∨ (∃ st, i = .send st) ∨ i = .powerOff)) ∨
    (s.frameValid = false ∧ t = reject .noFrame s ∧ ((∃ rpt, i = .transmit rpt ∧ s.phase = .idle) ∨ ∃ idx, i = .readFrame idx)) := by
  cases i with
  | nop => cases h; exact .inl ⟨rfl, rfl⟩
  | build pwr st =>
    rw [exec, execBuild] at h
    rcases whenIdle_cases h with ⟨hp, h'⟩ | ⟨hp, rfl⟩
    · cases h'; exact .inr (.inl ⟨pwr, st, rfl, hp, rfl⟩)
    · simp [hp]
  | transmit rpt =>
    rw [exec, execTransmit] at h
    rcases whenIdle_cases h with ⟨hp, h'⟩ | ⟨hp, rfl⟩
    · rcases whenFrame_cases h' with ⟨hv, h''⟩ | ⟨hv, rfl⟩
      · cases h''; exact .inr (.inr (.inl ⟨rpt, rfl, hp, hv, rfl⟩))
      · simp [hp, hv]
    · simp [hp]
  | send st =>
    rw [exec, execSend] at h
    rcases whenIdle_cases h with ⟨hp, h'⟩ | ⟨hp, rfl⟩
    · cases h'; exact .inr (.inr (.inr (.inl ⟨.powerOn, st, hp, rfl, .inl ⟨rfl, rfl⟩⟩)))
    · simp [hp]
  | powerOff =>
    rw [exec, execPowerOff] at h
    rcases whenIdle_cases h with ⟨hp, h'⟩ | ⟨hp, rfl⟩
    · cases h'; exact .inr (.inr (.inr (.inl ⟨.powerOff, _, hp, rfl, .inr ⟨rfl, rfl, rfl⟩⟩)))
    · simp [hp]
  | readFrame idx =>
    rw [exec, execReadFrame] at h
    rcases whenFrame_cases h with ⟨hv, h'⟩ | ⟨hv, rfl⟩
    · rw [readFrameByte_of_valid hv] at h'
      cases h'; simp [hv]
    · simp [hv]
  | readStatus => cases h; simp
  | clearStatus => cases h; simp

end Sys2Proof.Laws
end

