-- ==== Sys2Proof/Laws/PerInstr.lean ====
section
/-! SUPPORT. Facts about every command as syntax, one lemma per constructor: the number of a command fits its word below the
reserved bits (`WordFits`), and the word's low four bits are its opcode (`OpcodeField`). -/

namespace Sys2Proof.Laws

/-- The opcode and the operand bits of a command stay below bit 52, so the word holds them whole (R81 to R84). -/
def WordFits.Statement (i : Instr) : Prop := i.opcode + i.operandBits < 2 ^ 52

theorem WordFits.nop : WordFits.Statement .nop := by
  unfold WordFits.Statement
  decide
theorem WordFits.build (pwr : PowerMode) (st : Settings) : WordFits.Statement (.build pwr st) := by
  have h1 := powerMode_ordinal_lt pwr
  have h2 := encodeSettings_lt st
  have h3 := encodeSettings_mod st
  simp only [WordFits.Statement, Instr.opcode, Instr.operandBits]
  omega
theorem WordFits.transmit (rpt : BitVec 8) : WordFits.Statement (.transmit rpt) := by
  have h := rpt.isLt
  simp only [WordFits.Statement, Instr.opcode, Instr.operandBits]
  omega
theorem WordFits.send (st : Settings) : WordFits.Statement (.send st) := by
  have h2 := encodeSettings_lt st
  have h3 := encodeSettings_mod st
  simp only [WordFits.Statement, Instr.opcode, Instr.operandBits]
  omega
theorem WordFits.powerOff : WordFits.Statement .powerOff := by
  unfold WordFits.Statement
  decide
theorem WordFits.readFrame (idx : FramePos) : WordFits.Statement (.readFrame idx) := by
  have h := idx.isLt
  simp only [WordFits.Statement, Instr.opcode, Instr.operandBits]
  omega
theorem WordFits.readStatus : WordFits.Statement .readStatus := by
  unfold WordFits.Statement
  decide
theorem WordFits.clearStatus : WordFits.Statement .clearStatus := by
  unfold WordFits.Statement
  decide

/-- Bits 3 to 0 of a command word are its opcode (R80, R85). -/
def OpcodeField.Statement (i : Instr) : Prop := bits (encode i) 3 0 = i.opcode

/-- The operand bits of a command lie above the opcode, and its number fits the word, so the opcode field reads back. -/
theorem opcodeField_of {i : Instr} (fits : WordFits.Statement i) (op : i.opcode < 16) (above : i.operandBits % 16 = 0) :
    OpcodeField.Statement i := by
  rw [OpcodeField.Statement, encode, bits_ofNat (Nat.lt_trans fits (by decide))]
  omega

theorem OpcodeField.nop : OpcodeField.Statement .nop := by
  unfold OpcodeField.Statement
  decide
theorem OpcodeField.build (pwr : PowerMode) (st : Settings) : OpcodeField.Statement (.build pwr st) :=
  opcodeField_of (WordFits.build pwr st) (by simp [Instr.opcode]) (by
    have h := encodeSettings_mod st
    simp only [Instr.operandBits]
    omega)
theorem OpcodeField.transmit (rpt : BitVec 8) : OpcodeField.Statement (.transmit rpt) :=
  opcodeField_of (WordFits.transmit rpt) (by simp [Instr.opcode]) (by simp [Instr.operandBits])
theorem OpcodeField.send (st : Settings) : OpcodeField.Statement (.send st) :=
  opcodeField_of (WordFits.send st) (by simp [Instr.opcode]) (by
    have h := encodeSettings_mod st
    simp only [Instr.operandBits]
    omega)
theorem OpcodeField.powerOff : OpcodeField.Statement .powerOff := by
  unfold OpcodeField.Statement
  decide
theorem OpcodeField.readFrame (idx : FramePos) : OpcodeField.Statement (.readFrame idx) :=
  opcodeField_of (WordFits.readFrame idx) (by simp [Instr.opcode]) (by simp [Instr.operandBits])
theorem OpcodeField.readStatus : OpcodeField.Statement .readStatus := by
  unfold OpcodeField.Statement
  decide
theorem OpcodeField.clearStatus : OpcodeField.Statement .clearStatus := by
  unfold OpcodeField.Statement
  decide

end Sys2Proof.Laws
end

