-- ==== Sys2Proof/Laws/Runs.lean ====
section
/-! SUPPORT. Runs of several steps: one step more, runs one after the other, and that `run` is the host's run of the machine. -/

namespace Sys2Proof.Laws

open Sys2Proof.Machine

@[simp] theorem run_zero (s : State) : run 0 s = .next s := rfl

theorem run_succ_of_next {s t : State} (h : step s = .next t) (k : Nat) : run (k + 1) s = run k t := by simp [run, h]

/-- A run of `j + k` steps is a run of `j` steps and then one of `k`. -/
theorem run_add {s t : State} {j : Nat} (h : run j s = .next t) (k : Nat) : run (j + k) s = run k t := by
  induction j generalizing s with
  | zero => cases h; rw [Nat.zero_add]
  | succ j ih =>
    rw [Nat.add_right_comm]
    cases hs : step s with
    | next u =>
      rw [run_succ_of_next hs] at h ⊢
      exact ih h
    | fault f => simp [run, hs] at h
    | refused r => simp [run, hs] at h

/-- One step more of the host's run of any machine, by what the step answers. -/
theorem core_run_next (M : Host.Core) (k : Nat) {s t : M.State} (h : M.step s = .next t) : M.run (k + 1) s = M.run k t := by
  simp [Host.Core.run, h]

theorem core_run_fault (M : Host.Core) (k : Nat) {s : M.State} {f : M.Fault} (h : M.step s = .fault f) :
    M.run (k + 1) s = .fault f := by
  simp [Host.Core.run, h]

theorem core_run_refused (M : Host.Core) (k : Nat) {s : M.State} {r : M.Refusal} (h : M.step s = .refused r) :
    M.run (k + 1) s = .refused r := by
  simp [Host.Core.run, h]

/-- `run` is the host's run of the machine. -/
theorem run_eq_core_run (k : Nat) (s : State) : run k s = Host.Core.run Sys2Proof.core k s := by
  induction k generalizing s with
  | zero => rfl
  | succ k ih =>
    cases hs : step s with
    | next t =>
      rw [run_succ_of_next hs]
      exact (ih t).trans (core_run_next Sys2Proof.core k hs).symm
    | fault f =>
      have h : run (k + 1) s = .fault f := by simp [run, hs]
      exact h.trans (core_run_fault Sys2Proof.core k hs).symm
    | refused r =>
      have h : run (k + 1) s = .refused r := by simp [run, hs]
      exact h.trans (core_run_refused Sys2Proof.core k hs).symm

end Sys2Proof.Laws
end

