-- ==== Sys2Proof/Tests/RefParams.lean ====
section
/-! SUPPORT. The reference parameters REF_PARAMS of spec/93_implementation_defined.md G1 to G3, for the [REF] vectors of the
tests. They come from general knowledge, not from the source, and the model does not use them. -/

namespace Sys2Proof.Tests

/-- REF_PARAMS (G1, G2, G3). -/
def refRaw : RawParams where
  fieldIndex
    | .power => 5
    | .climateAndISee => 6
    | .temperature => 7
    | .climateAndHorizontalVanne => 8
    | .fanAndVerticalVanne => 9
    | .clock => 10
    | .endTime => 11
    | .startTime => 12
    | .timeControlAndArea => 13
  template := #v[0x23, 0xCB, 0x26, 0x01, 0, 0, 0, 0, 0, 0, 0, 0, 0, 0, 0, 0, 0, 0]
  reserved := [4, 14, 15, 16]
  powerCode
    | .powerOff => 0x00
    | .powerOn => 0x20
  climate1
    | .auto => 0x20
    | .hot => 0x08
    | .cold => 0x18
    | .dry => 0x10
  climate2
    | .auto => 0x00
    | .hot => 0x00
    | .cold => 0x06
    | .dry => 0x02
  iseeCode
    | .notApplicable => 0x00
    | .off => 0x00
    | .on => 0x40
  fanCode
    | .auto => 0x80
    | .silent => 0x05
    | .speed1 => 0x01
    | .speed2 => 0x02
    | .speed3 => 0x03
    | .speed4 => 0x04
    | .speed5 | .speed6 => 0x00
  vvCode
    | .auto => 0x40
    | .pos k => (#[0x48, 0x50, 0x58, 0x60, 0x68, 0x78, 0x00] : Array Byte).getD k.val 0
  hvCode
    | .notApplicable => 0x00
    | .pos k => (#[0x10, 0x20, 0x30, 0x40, 0x50, 0xC0, 0x00] : Array Byte).getD k.val 0
  areaCode _ := 0x00
  tcCode _ := 0x00
  nFanSpeeds := 4
  nVV := 6
  nHV := 6
  nArea := 3
  timing := ⟨3400, 1750, 450, 1300, 420, 440, 17100⟩
  powerOffSettings := Config.defaultSettings

/-- REF_PARAMS passes every check of R9 (G2). -/
theorem refRaw_wf : refRaw.wf = true := by decide

/-- REF_PARAMS as well-formed parameters. -/
def refParams : Params := ⟨refRaw, refRaw_wf⟩

end Sys2Proof.Tests
end

