-- ==== Sys2Proof/Tests/Slice0.lean ====
section
/-! SUPPORT. The model's own tests: expected results are the vectors of spec/95_test_vectors.md and words written out from the
encodings of spec/30_encoding.md. [REF] vectors use REF_PARAMS. -/

namespace Sys2Proof.Tests

open Sys2Proof.Machine

/-! ### WellFormed: an ill-formed term for each check, refused -/

theorem test_wf_refuses_fan : Instr.wf refParams (.send { Config.defaultSettings with fan := .speed5 }) = false := by decide
theorem test_wf_refuses_vvane : Instr.wf refParams (.send { Config.defaultSettings with vvane := .pos 6 }) = false := by decide
theorem test_wf_refuses_hvane : Instr.wf refParams (.build .powerOn { Config.defaultSettings with hvane := .pos 6 }) = false := by
  decide

/-- REF_PARAMS with two area modes only. -/
def twoAreas : Params := ⟨{ refRaw with nArea := 2 }, by decide⟩

theorem test_wf_refuses_area : Instr.wf twoAreas (.send { Config.defaultSettings with area := .area 2 }) = false := by decide
theorem test_wf_accepts_defaults : Instr.wf refParams (.send Config.defaultSettings) = true := by decide

/-! ### R9: a parameter record that fails each check, refused by the check's name -/

theorem test_params_index_injective :
    ({ refRaw with fieldIndex := fun _ => 5 } : RawParams).failedCheck = some .indexInjective := by decide
theorem test_params_index_range :
    ({ refRaw with fieldIndex := fun n => if n = .power then 17 else refRaw.fieldIndex n } : RawParams).failedCheck
      = some .indexRange := by decide
theorem test_params_reserved_disjoint :
    ({ refRaw with reserved := [5] } : RawParams).failedCheck = some .reservedDisjoint := by decide
theorem test_params_reserved_zero : ({ refRaw with reserved := [0] } : RawParams).failedCheck = some .reservedZero := by decide
theorem test_params_counts : ({ refRaw with nFanSpeeds := 7 } : RawParams).failedCheck = some .counts := by decide
theorem test_params_isee_na : ({ refRaw with iseeCode := fun _ => 1 } : RawParams).failedCheck = some .iseeNa := by decide
theorem test_params_zero_codes : ({ refRaw with areaCode := fun _ => 0x40 } : RawParams).failedCheck = some .zeroCodes := by
  decide
theorem test_params_power_off_auto :
    ({ refRaw with powerOffSettings := { Config.defaultSettings with climate := .hot } } : RawParams).failedCheck
      = some .powerOffAuto := by decide

/-! ### Decoding: the words of spec/95 section 2.1, for every constructor -/

/-- Cold, 18 degrees, Speed3, everything else defaulted (E3). -/
def cold18 : Settings := { Config.defaultSettings with climate := .cold, temperature := 18, fan := .speed3 }

/-- The settings of vector V4. -/
def v4 : Settings where
  climate := .hot
  temperature := 10
  fan := .silent
  vvane := .pos 1
  hvane := .pos 2
  isee := .on
  area := .area 0
  start := some ⟨7, 45⟩
  stop := some ⟨22, 5⟩

theorem test_decode_nop : decode refParams 0x0000000000000000 = .ok .nop := by decide
theorem test_decode_build_v4 : decode refParams 0x00016DB4F6688521 = .ok (.build .powerOff v4) := by decide
theorem test_decode_build_cold18 : decode refParams 0x0000000000020951 = .ok (.build .powerOn cold18) := by decide
theorem test_decode_build_late_start :
    decode refParams 0x000000EEF0001471
      = .ok (.build .powerOn { Config.defaultSettings with climate := .dry, temperature := 40, start := some ⟨23, 59⟩ }) := by
  decide
theorem test_decode_build_negative :
    decode refParams 0x0000000000007D91 = .ok (.build .powerOn { Config.defaultSettings with temperature := -5 }) := by decide
theorem test_decode_send : decode refParams 0x0000000000020943 = .ok (.send cold18) := by decide
theorem test_decode_transmit : decode refParams 0x0000000000000022 = .ok (.transmit 2) := by decide
theorem test_decode_powerOff : decode refParams 0x0000000000000004 = .ok .powerOff := by decide
theorem test_decode_readFrame : decode refParams 0x0000000000000115 = .ok (.readFrame 17) := by decide
theorem test_decode_readStatus : decode refParams 0x0000000000000006 = .ok .readStatus := by decide
theorem test_decode_clearStatus : decode refParams 0x0000000000000007 = .ok .clearStatus := by decide

theorem test_decode_reserved_opcode : decode refParams 0x000000000000000F = .error .reservedOpcode := by decide
theorem test_decode_reserved_bit_n : decode refParams 0x0000000000000010 = .error .reservedBits := by decide
theorem test_decode_send_power : decode refParams 0x0000000000000A93 = .error .sendPower := by decide
theorem test_decode_fan : decode refParams 0x0000000000038001 = .error .fan := by decide
theorem test_decode_vvane : decode refParams 0x00000000001C0001 = .error .verticalVane := by decide
theorem test_decode_isee : decode refParams 0x0000000003000001 = .error .isee := by decide
theorem test_decode_absent_start : decode refParams 0x00000000A0000001 = .error .startTime := by decide
theorem test_decode_start_hour : decode refParams 0x0000000310000001 = .error .startTime := by decide
theorem test_decode_start_minute : decode refParams 0x000000F010000001 = .error .startTime := by decide
theorem test_decode_end_hour : decode refParams 0x0000310000000001 = .error .endTime := by decide
theorem test_decode_reserved_bit_s : decode refParams 0x0010000000000001 = .error .reservedBits := by decide
theorem test_decode_reserved_bit_t : decode refParams 0x0000000000001002 = .error .reservedBits := by decide
theorem test_decode_index : decode refParams 0x0000000000000125 = .error .index := by decide

/-- The machine's own parameters are open, but the words of default settings decode under all of them (95 section 2.1). -/
theorem test_table_word_send_defaults : decodeTableWord 64 0xA83 = some (.send Config.defaultSettings) := by decide
theorem test_table_word_too_long : decodeTableWord 80 (2 ^ 64) = none := by decide

theorem test_encode_v4 : encode (.build .powerOff v4) = 0x00016DB4F6688521 := by decide
theorem test_encode_readFrame : encode (.readFrame 7) = 0x0000000000000075 := by decide

/-! ### The frame encoder: 95 sections 2.2 and 2.3 -/

theorem test_temperature_offsets :
    [0x80#8, 0xFB#8, 0x0F#8, 0x10#8, 0x11#8, 0x15#8, 0x1E#8, 0x1F#8, 0x20#8, 0x7F#8].map temperatureOffset
      = [0, 0, 0, 0, 1, 5, 14, 15, 15, 15] := by decide
theorem test_buckets :
    [bucket 0 59, bucket 1 59, bucket 7 45, bucket 12 10, bucket 14 37, bucket 22 5, bucket 23 59, bucket 31 63]
      = [0, 5, 28, 12, 42, 0, 115, 186] := by decide
theorem test_checksum_all_ff : checksum (Vector.replicate 18 0xFF) = 0xEF := by decide

theorem test_frame_v1 :
    encodeFrame refParams .powerOn cold18 14 37
      = #v[0x23, 0xCB, 0x26, 0x01, 0x00, 0x20, 0x18, 0x02, 0x06, 0x43, 0x2A, 0, 0, 0, 0, 0, 0, 0xC2] := by decide
theorem test_frame_v4 :
    encodeFrame refParams .powerOff v4 23 59
      = #v[0x23, 0xCB, 0x26, 0x01, 0x00, 0x00, 0x48, 0x00, 0x30, 0x55, 0x73, 0x00, 0x1C, 0, 0, 0, 0, 0x71] := by decide

/-! ### The stream: 95 section 2.5 and E4 -/

theorem test_bits_of_0x01 : byteBits 0x01 = [true, false, false, false, false, false, false, false] := by decide
theorem test_bits_of_0x23 : byteBits 0x23 = [true, true, false, false, false, true, false, false] := by decide

/-- The frame of vector V1. -/
def v1Frame : Frame := #v[0x23, 0xCB, 0x26, 0x01, 0x00, 0x20, 0x18, 0x02, 0x06, 0x43, 0x2A, 0, 0, 0, 0, 0, 0, 0xC2]

theorem test_v1_duration : repetitionDuration refParams v1Frame = 171730 := by decide

/-! ### Commands and turns, one step each -/

/-- The reset state with a frame (vector V1) and turns lined up. -/
def withFrame (turns : List Turn) : State := { State.reset with frame := v1Frame, frameValid := true, turns }

/-- A state in the middle of byte 0 of a transmission of V1. -/
def midByte (turns : List Turn) : State :=
  { withFrame turns with phase := .bitSpace, byteIdx := 0, bitIdx := 1, repDone := 0, repTotal := 2 }

/-- A field of the next state, if there is one. -/
def peek {α : Type} (r : Result) (f : State → α) : Option α :=
  match r with
  | .next t => some (f t)
  | .fault _ => none
  | .refused _ => none

theorem test_first_status_after_reset : peek (step (State.reset.withFetchWord 64 0x6)) State.resp = some (some 0) := by decide
theorem test_transmit_after_reset :
    peek (step (State.reset.withFetchWord 64 0x22)) (fun t => (t.resp, t.err)) = some (some 0, .noFrame) := by decide
theorem test_readFrame_after_reset :
    peek (step (State.reset.withFetchWord 64 0x75)) (fun t => (t.resp, t.err)) = some (some 0, .noFrame) := by decide
theorem test_readFrame_checksum :
    peek (step ((withFrame []).withFetchWord 64 0x115)) (fun t => (t.resp, t.err)) = some (some 0xC2, .none) := by decide
theorem test_illegal_word : peek (step (State.reset.withFetchWord 64 0x8)) (fun t => (t.resp, t.err))
    = some (some 0, .illegalCmd) := by decide
theorem test_build_sets_valid :
    peek (step (State.reset.withFetchWord 64 0xA91)) (fun t => (t.resp, t.frameValid, t.phase)) = some (some 0, true, .idle) := by
  decide
theorem test_send_starts :
    peek (step (State.reset.withFetchWord 64 0xA83)) statusWord = some 0x0000002000010003 := by decide
theorem test_powerOff_starts :
    peek (step (State.reset.withFetchWord 64 0x4)) (fun t => (t.phase, t.repTotal)) = some (.hdrMark, 2) := by decide
theorem test_powerOff_busy :
    peek (step ((midByte []).withFetchWord 64 0x4)) (fun t => (t.err, t.frame, t.phase, t.bitIdx))
      = some (.busy, v1Frame, .bitSpace, 1) := by decide
theorem test_transmit_two :
    peek (step ((withFrame []).withFetchWord 64 0x22)) (fun t => (t.phase, t.repTotal)) = some (.hdrMark, 2) := by decide
theorem test_transmit_zero :
    peek (step ((withFrame []).withFetchWord 64 0x2)) (fun t => (t.phase, t.repTotal, t.err)) = some (.idle, 0, .none) := by decide
theorem test_nop_busy : peek (step ((midByte []).withFetchWord 64 0x0)) (fun t => (t.resp, t.err)) = some (some 0, .none) := by
  decide
theorem test_clearStatus :
    peek (step (({ withFrame [] with err := .txFail, txinfo := 0x5A }).withFetchWord 64 0x7)) (fun t => (t.err, t.txinfo))
      = some (.none, 0) := by decide
theorem test_status_after_failure :
    statusWord { withFrame [] with byteIdx := 6, bitIdx := 1, repTotal := 2, err := .txFail, txinfo := 0x5A }
      = 0x0000002002605A42 := by decide

/-- Bit 1 of 0x23 is 1, so the space is OneSpace (95 section 2.5). -/
theorem test_segment_one : currentSegment refParams (midByte []) = .ok (some ⟨.space, 1300, 0⟩) := by decide
/-- After byte 0 bit 1 comes bit 2 (R175). -/
theorem test_seq_ok :
    peek (step (midByte [.seq .ok])) (fun t => (t.phase, t.byteIdx, t.bitIdx, t.out.length)) = some (.bitMark, 0, 2, 1) := by decide
theorem test_seq_fail :
    peek (step (midByte [.seq (.fail 0x5A)])) (fun t => (t.phase, t.err, t.txinfo, t.bitIdx)) = some (.idle, .txFail, 0x5A, 1) := by
  decide
theorem test_reset_mid_transmission :
    peek (step (midByte [.reset])) (fun t => (t.frameValid, statusWord t, t.out)) = some (false, 0, [.reset]) := by decide
theorem test_wait : peek (step State.reset) (fun t => t) = some State.reset := by decide

/-! ### The assembler: R114, R115 and the words of 95 -/

theorem test_asm_send : assemble refParams "send climate=cold, temp=18, fan=speed3".toList = some 0x20943 := by decide
theorem test_asm_build :
    assemble refParams "build power=off, hvane=hv3, start=07:45".toList = some 0x000000B4F0600A81 := by decide
theorem test_asm_retransmit : assemble refParams "retransmit".toList = some 0x22 := by decide
theorem test_asm_refuses_speed5 : assemble refParams "send fan=speed5".toList = none := by decide

/-! ### Witnesses: for each obligation with hypotheses, a concrete state and operands that meet all of them together -/

/-- The reset state, one HOST turn lined up, the clock ports at 14:37. -/
def hostFirst (w : Word) (s : State) : State := { s with turns := [.host w 14 37] }

/-- A transmission of V1 in a given phase and position, TX answering ok to the next segment. -/
def seqFirst (phase : Phase) (byteIdx : FramePos) (bitIdx : Fin 8) (repDone : BitVec 8) : State :=
  { withFrame [.seq .ok] with phase, byteIdx, bitIdx, repDone, repTotal := 2 }

/-- The start of a transmission of V1 with `n` repetitions. -/
def started (n : BitVec 8) (turns : List Turn) : State := { withFrame turns with phase := .hdrMark, repTotal := n }

theorem witness_EncodedCommandsDecodeBack : Instr.wf refParams (.build .powerOff v4) = true := by decide

theorem witness_DecodedWordsAreTheEncoding : decode Config.params 0xA91 = .ok (.build .powerOn Config.defaultSettings) := by
  decide

theorem witness_SettingsFieldsAreReadAtTheirPlaces_build :
    decode refParams 0x00016DB4F6688521 = .ok (.build .powerOff v4) ∨
      (decode refParams 0x00016DB4F6688521 = .ok (.send v4) ∧ PowerMode.powerOff = .powerOff) := .inl (by decide)

theorem witness_SettingsFieldsAreReadAtTheirPlaces_send :
    decode refParams 0x20943 = .ok (.build .powerOff cold18) ∨
      (decode refParams 0x20943 = .ok (.send cold18) ∧ PowerMode.powerOff = .powerOff) := .inr (by decide)

/-- Each climate code, and the three sensing codes, in BUILD or SEND words that decode under all parameters. -/
theorem witness_ClimateAndSensingCodesNameTheirModes :
    ((∃ pwr, decode Config.params 0x0A91 = .ok (.build pwr Config.defaultSettings)) ∧ bits 0x0A91 6 5 = 0 ∧ bits 0x0A91 25 24 = 0)
      ∧ (decode Config.params 0x1000AA3 = .ok (.send { Config.defaultSettings with climate := .hot, isee := .off }) ∧
        bits 0x1000AA3 6 5 = 1 ∧ bits 0x1000AA3 25 24 = 1)
      ∧ (decode Config.params 0x2000AC3 = .ok (.send { Config.defaultSettings with climate := .cold, isee := .on }) ∧
        bits 0x2000AC3 6 5 = 2 ∧ bits 0x2000AC3 25 24 = 2)
      ∧ (decode Config.params 0xAE3 = .ok (.send { Config.defaultSettings with climate := .dry }) ∧ bits 0xAE3 6 5 = 3) :=
  ⟨⟨⟨.powerOn, by decide⟩, by decide⟩, by decide, by decide, by decide⟩

/-- REF_PARAMS with every member the fields can name. -/
def allMembers : Params := ⟨{ refRaw with nFanSpeeds := 6, nVV := 7, nHV := 7, nArea := 3 }, by decide⟩

/-- The eight fan codes, and the first and last code of each other field, in words written out from R82. -/
theorem witness_FanVaneAreaAndPowerCodesNameTheirMembers :
    [FanMode.auto, .silent, .speed1, .speed2, .speed3, .speed4, .speed5, .speed6].mapIdx
        (fun k fan => decide (decode allMembers (BitVec.ofNat 64 (0xA83 + 0x8000 * k))
          = .ok (.send { Config.defaultSettings with fan }))) = List.replicate 8 true ∧
      decode allMembers 0xCFC0A91
        = .ok (.build .powerOn { Config.defaultSettings with vvane := .pos 6, hvane := .pos 6, area := .area 2 }) ∧
      decode allMembers 0x4240A81
        = .ok (.build .powerOff { Config.defaultSettings with vvane := .pos 0, hvane := .pos 0, area := .area 0 }) := by decide

/-- The repeat counts 0 and 255, the indexes 0 and 17. -/
theorem witness_CountAndIndexFieldsAreRead :
    decode Config.params 0x002 = .ok (.transmit 0) ∧ decode Config.params 0xFF2 = .ok (.transmit 255) ∧
      decode Config.params 0x005 = .ok (.readFrame 0) ∧ decode Config.params 0x115 = .ok (.readFrame 17) := by decide

theorem witness_illegal_word : IllegalWord Config.params 0x8 := .inl (by decide)

theorem witness_legal_word : ¬ IllegalWord Config.params 0x115 := by simp [IllegalWord, bits]

theorem witness_IllegalWordsAreRejected :
    ((hostFirst 0x8 State.reset).turns = [.host 0x8 14 37] ∧ IllegalWord Config.params 0x8) ∧
      (hostFirst 0x115 State.reset).turns = [.host 0x115 14 37] ∧ ¬ IllegalWord Config.params 0x115 :=
  ⟨⟨rfl, witness_illegal_word⟩, rfl, witness_legal_word⟩

theorem witness_StepRunsTheDecodedCommand :
    (hostFirst 0xA83 State.reset).turns = [.host 0xA83 14 37] ∧ decode Config.params 0xA83 = .ok (.send Config.defaultSettings) :=
  ⟨rfl, by decide⟩

theorem witness_StepWithoutATurnWaits : State.reset.turns = [] := rfl

theorem witness_BuildCommitsTheEncodedFrame : State.reset.phase = .idle := rfl

theorem witness_ReadFrameAnswersTheByte : (withFrame []).frameValid = true ∧ State.reset.frameValid = false := by decide

theorem witness_TransmitStartsTheSequencer :
    (withFrame []).phase = .idle ∧ (withFrame []).frameValid = true ∧ (0 : BitVec 8) = 0 ∧ (1 : BitVec 8) ≠ 0 := by decide

theorem witness_SendBuildsAndStarts : (withFrame []).phase = .idle := rfl

theorem witness_PowerOffBuildsAndStarts : (withFrame []).phase = .idle := rfl

theorem witness_BusyRejectsExactlyTheStarters :
    (midByte []).phase ≠ .idle ∧ NeedsIdle (.transmit 0) ∧ ¬ NeedsIdle (.readFrame 17) := ⟨by decide, trivial, id⟩

/-- The two that raise it, and each way not to raise it: no need of a frame, a frame, a busy TRANSMIT. -/
theorem witness_NoFrameRejectsExactlyTheFrameUsers :
    (State.reset.frameValid = false ∧ State.reset.phase = .idle) ∧ ¬ NeedsFrame .powerOff ∧ (withFrame []).frameValid = true ∧
      ((∃ rpt, Instr.transmit 2 = .transmit rpt) ∧ { midByte [] with frameValid := false }.phase ≠ .idle) :=
  ⟨by decide, id, rfl, ⟨2, rfl⟩, by decide⟩

theorem witness_FirstRejectionConditionIsReported :
    ((hostFirst 0x8 (midByte [])).turns = [.host 0x8 14 37] ∧ IllegalWord Config.params 0x8) ∧
      ((hostFirst 0x22 (midByte [])).turns = [.host 0x22 14 37] ∧ decode Config.params 0x22 = .ok (.transmit 2) ∧
        ¬ IllegalWord Config.params 0x22 ∧ NeedsIdle (.transmit 2) ∧ (midByte []).phase ≠ .idle) ∧
      ((hostFirst 0x115 State.reset).turns = [.host 0x115 14 37] ∧ decode Config.params 0x115 = .ok (.readFrame 17) ∧
        ¬ IllegalWord Config.params 0x115 ∧ ¬ (NeedsIdle (.readFrame 17) ∧ State.reset.phase ≠ .idle) ∧
        NeedsFrame (.readFrame 17) ∧ State.reset.frameValid = false) :=
  ⟨⟨rfl, witness_illegal_word⟩, ⟨rfl, by decide, by simp [IllegalWord, bits], trivial, by decide⟩,
    rfl, by decide, witness_legal_word, fun h => h.1, trivial, rfl⟩

/-- A turn of each agent that a step runs. -/
theorem witness_EveryCommandIsAnsweredOnce :
    (∃ t, step (hostFirst 0x115 (withFrame [])) = .next t) ∧ (∃ t, step (hostFirst 0x6 (withFrame [])) = .next t) ∧
      (∃ t, step (hostFirst 0x7 (withFrame [])) = .next t) ∧ (∃ t, step (hostFirst 0x8 (withFrame [])) = .next t) ∧
      (∃ t, step (midByte [.seq .ok]) = .next t) ∧ (∃ t, step (midByte [.reset]) = .next t) :=
  ⟨⟨_, rfl⟩, ⟨_, rfl⟩, ⟨_, rfl⟩, ⟨_, rfl⟩, ⟨_, rfl⟩, _, rfl⟩

theorem witness_ReadsHaveNoSideEffects : (withFrame []).frameValid = true := rfl

theorem witness_PowerByteFollowsTheCommand : State.reset.phase = .idle := rfl

/-- The three temperature clauses at the values where they meet: 16 and 31 saturate, 17 and 30 do not. -/
theorem witness_TemperatureByteIsClamped :
    (16#8).toInt ≤ 16 ∧ 31 ≤ (31#8).toInt ∧ (16 < (17#8).toInt ∧ (17#8).toInt < 31) ∧ 16 < (30#8).toInt ∧ (30#8).toInt < 31 := by
  decide

/-- An absent time, and a present one, for the start and the end. -/
theorem witness_TimeBytesAreBuckets :
    cold18.stop = none ∧ v4.stop = some ⟨22, 5⟩ ∧ cold18.start = none ∧ v4.start = some ⟨7, 45⟩ := by decide

/-- Position 4 of REF_PARAMS is a template position. -/
theorem witness_TemplateBytesAreKept : (4 : FramePos) ≠ 17 ∧ ∀ n, refParams.fieldPos n ≠ 4 :=
  ⟨by decide, fun n => by cases n <;> decide⟩

theorem witness_PowerOffFrameDiffersInTwoPlaces :
    refParams.raw.powerOffSettings = Config.defaultSettings ∧ (7 : FramePos) ≠ refParams.fieldPos .power ∧ (7 : FramePos) ≠ 17 :=
  ⟨rfl, by decide, by decide⟩

theorem witness_EqualBuildsGiveEqualFrames :
    (hostFirst 0xA91 State.reset).turns = [.host 0xA91 14 37] ∧ (hostFirst 0xA91 (withFrame [])).turns = [.host 0xA91 14 37] ∧
      decode Config.params 0xA91 = .ok (.build .powerOn Config.defaultSettings) ∧ State.reset.phase = .idle ∧
      (withFrame []).phase = .idle := ⟨rfl, rfl, by decide, rfl, rfl⟩

theorem witness_OnlyBuildsReadTheTimeOfDay :
    (¬ BuildsFrame .readStatus ∧ ∃ t, exec .readStatus (withFrame []) = .next t) ∧
      (midByte []).phase ≠ .idle ∧ ∃ t, exec .powerOff (midByte []) = .next t := ⟨⟨id, _, rfl⟩, by decide, _, rfl⟩

theorem witness_MarkAndHeaderPhasesMoveOn :
    (seqFirst .hdrMark 0 0 0).turns = [.seq .ok] ∧ (seqFirst .hdrMark 0 0 0).phase = .hdrMark ∧
      (seqFirst .hdrSpace 0 0 0).phase = .hdrSpace ∧ (seqFirst .bitMark 17 7 1).phase = .bitMark ∧
      (seqFirst .ftrMark 17 7 1).phase = .ftrMark := by decide

/-- A valid frame at the last bit before each boundary: bit 6, bit 7 of byte 16, bit 7 of byte 17. -/
theorem witness_BitSpaceEmitsTheAddressedBit :
    (seqFirst .bitSpace 0 6 0).turns = [.seq .ok] ∧ (seqFirst .bitSpace 0 6 0).phase = .bitSpace ∧
      (seqFirst .bitSpace 0 6 0).frameValid = true ∧ (seqFirst .bitSpace 0 6 0).bitIdx.val < 7 ∧
      ((seqFirst .bitSpace 16 7 0).bitIdx.val = 7 ∧ (seqFirst .bitSpace 16 7 0).byteIdx.val < 17) ∧
      (seqFirst .bitSpace 17 7 0).bitIdx.val = 7 ∧ (seqFirst .bitSpace 17 7 0).byteIdx.val = 17 := by decide

/-- With a total of 2: after the first repetition one is left, after the second none. -/
theorem witness_FooterSpaceEndsTheRepetition :
    (seqFirst .ftrSpace 17 7 0).turns = [.seq .ok] ∧ (seqFirst .ftrSpace 17 7 0).phase = .ftrSpace ∧
      (seqFirst .ftrSpace 17 7 0).repDone + 1 < (seqFirst .ftrSpace 17 7 0).repTotal ∧
      ¬ (seqFirst .ftrSpace 17 7 1).repDone + 1 < (seqFirst .ftrSpace 17 7 1).repTotal := by decide

theorem witness_TransmitterFailureAborts :
    (midByte [.seq (.fail 0x5A)]).turns = [.seq (.fail 0x5A)] ∧
      ∃ sg, currentSegment Config.params (midByte [.seq (.fail 0x5A)]) = .ok (some sg) := ⟨rfl, _, rfl⟩

theorem witness_IdleSequencerTurnPasses :
    (withFrame [.seq .ok]).turns = [.seq .ok] ∧ (withFrame [.seq .ok]).phase = .idle := by decide

theorem witness_BitSpaceWithoutAFrameFaults :
    let s : State := { midByte [.seq .ok] with frameValid := false }
    s.turns = [.seq .ok] ∧ s.phase = .bitSpace ∧ s.frameValid = false := by decide

/-- Segment 0 of a stream of one repetition exists, and is its header mark. -/
theorem witness_StreamHas292AlternatingSegments :
    (stream refParams v1Frame 1)[0]? = some ⟨.mark, 3400, 38000⟩ := rfl

theorem witness_MarksCarryTheCarrier :
    ∃ t sg, step (midByte [.seq .ok]) = .next t ∧ OutEntry.seg sg ∈ t.out ∧ OutEntry.seg sg ∉ (midByte [.seq .ok]).out :=
  ⟨_, _, rfl, List.mem_cons_self, List.not_mem_nil⟩

theorem witness_ResetTurnRestoresTheResetState : (midByte [.reset]).turns = [.reset] := rfl

/-- ERR changes at an illegal word, a busy start, a missing frame, a clearing command, a transmitter failure, and a reset. -/
theorem witness_ErrorCodeHasFewWriters :
    (∃ t, step (hostFirst 0x8 State.reset) = .next t ∧ t.err ≠ ErrCode.none) ∧
      (∃ t, step (hostFirst 0x4 (midByte [])) = .next t ∧ t.err ≠ ErrCode.none) ∧
      (∃ t, step (hostFirst 0x115 State.reset) = .next t ∧ t.err ≠ ErrCode.none) ∧
      (∃ t, step (midByte [.seq (.fail 1)]) = .next t ∧ t.err ≠ ErrCode.none) ∧
      (∃ t, step (hostFirst 0x7 { State.reset with err := .busy }) = .next t ∧ t.err ≠ ErrCode.busy) ∧
      ∃ t, step { midByte [.reset] with err := .busy } = .next t ∧ t.err ≠ ErrCode.busy :=
  ⟨⟨_, rfl, by decide⟩, ⟨_, rfl, by decide⟩, ⟨_, rfl, by decide⟩, ⟨_, rfl, by decide⟩, ⟨_, rfl, by decide⟩, _, rfl, by decide⟩

/-- TXINFO changes at a transmitter failure, a clearing command and a reset. -/
theorem witness_FailureInfoHasFewWriters :
    (∃ t, step (midByte [.seq (.fail 0x5A)]) = .next t ∧ t.txinfo ≠ 0) ∧
      (∃ t, step (hostFirst 0x7 { State.reset with txinfo := 0x5A }) = .next t ∧ t.txinfo ≠ 0x5A) ∧
      ∃ t, step { midByte [.reset] with txinfo := 0x5A } = .next t ∧ t.txinfo ≠ 0x5A :=
  ⟨⟨_, rfl, by decide⟩, ⟨_, rfl, by decide⟩, _, rfl, by decide⟩

theorem witness_FrameHasFewWriters : ∃ t, step (hostFirst 0xA91 State.reset) = .next t := ⟨_, rfl⟩

theorem witness_OutIsAppendOnly : ∃ t, step (midByte [.seq .ok]) = .next t := ⟨_, rfl⟩

theorem witness_TransmissionSeesAConstantFrame :
    (hostFirst 0xA91 (midByte [])).phase ≠ .idle ∧ (hostFirst 0xA91 (midByte [])).turns = [.host 0xA91 14 37] ∧
      Turn.host 0xA91 14 37 ≠ .reset ∧ ∃ t, step (hostFirst 0xA91 (midByte [])) = .next t := ⟨by decide, rfl, by decide, _, rfl⟩

/-- The reset state with a SEND word lined up meets the invariant. -/
theorem witness_Inv_idle : Inv (hostFirst 0xA83 State.reset) where
  frame_inv h := by cases h
  busy_has_frame h := absurd rfl h
  busy_reps h := absurd rfl h
  header_position h := ⟨rfl, rfl⟩
  footer_position h := by rcases h with h | h <;> cases h

theorem witness_StepKeepsTheInvariant :
    Inv (hostFirst 0xA83 State.reset) ∧ ∃ t, step (hostFirst 0xA83 State.reset) = .next t := ⟨witness_Inv_idle, _, rfl⟩

theorem witness_InvariantRunsNeverStop : Inv (hostFirst 0xA83 State.reset) := witness_Inv_idle

theorem witness_ValidFramesMeetTheirInvariants :
    ∃ t, run 1 { State.reset with turns := [.host 0xA91 14 37] } = .next t ∧ t.frameValid = true := ⟨_, rfl, rfl⟩

theorem witness_AtStart (n : BitVec 8) (turns : List Turn) (h : n ≠ 0) : AtStart n (started n turns) :=
  ⟨rfl, rfl, rfl, rfl, rfl, rfl, h⟩

/-- The whole transmission, and a failure at its first and at its last segment. -/
theorem witness_TransmissionEmitsItsStream :
    (AtStart 1 (started 1 (List.replicate (292 * (1 : BitVec 8).toNat) (.seq .ok) ++ [])) ∧
        (started 1 (List.replicate (292 * (1 : BitVec 8).toNat) (.seq .ok) ++ [])).turns
          = List.replicate (292 * (1 : BitVec 8).toNat) (.seq .ok) ++ []) ∧
      (AtStart 2 (started 2 (List.replicate 0 (.seq .ok) ++ [.seq (.fail 9)])) ∧ 0 < 292 * (2 : BitVec 8).toNat) ∧
      AtStart 2 (started 2 (List.replicate 583 (.seq .ok) ++ [.seq (.fail 9)])) ∧ 583 < 292 * (2 : BitVec 8).toNat :=
  ⟨⟨witness_AtStart 1 _ (by decide), rfl⟩, ⟨witness_AtStart 2 _ (by decide), by decide⟩, witness_AtStart 2 _ (by decide),
    by decide⟩

theorem witness_HostCommandsLeaveTheStreamAlone :
    let ts : List Turn := [.seq .ok, .host 0x4 14 37, .seq .ok]
    AtStart 2 (started 2 ts) ∧ (started 2 ts).turns = ts ++ [] ∧ ts.all Turn.harmless = true ∧
      ts.countP Turn.isSeq ≤ 292 * (2 : BitVec 8).toNat := ⟨witness_AtStart 2 _ (by decide), rfl, by decide, by decide⟩

theorem witness_SendEmitsItsFrameTwice :
    let s : State := { State.reset with turns := .host 0xA83 14 37 :: (List.replicate 584 (.seq .ok) ++ []) }
    s.phase = .idle ∧ decode Config.params 0xA83 = .ok (.send Config.defaultSettings) ∧
      s.turns = .host 0xA83 14 37 :: (List.replicate 584 (.seq .ok) ++ []) := ⟨rfl, by decide, rfl⟩

/-- REF_PARAMS meet all eight conditions, and a record that fails each one is a test above. -/
theorem witness_ParameterChecksDecideMeaning : ∃ p, refRaw.check = .ok p ∧ p.raw = refRaw := ⟨refParams, rfl, rfl⟩

theorem witness_AssemblerEmitsLegalWords : assemble Config.params "send_defaults".toList = some 0xA83 := by decide

end Sys2Proof.Tests
end

section
/-! PROOFS. What the eight checks of R9 say of a parameter record, one equivalence per check, and that a record is given a
meaning exactly when they all hold. -/

namespace Sys2Proof.Proofs

open Sys2Proof.Laws

theorem paramCheck_mem_all (c : ParamCheck) : c ∈ ParamCheck.all := by cases c <;> decide

theorem areaMode_mem_all (a : AreaMode) : a ∈ AreaMode.all := by
  cases a with
  | notApplicable => decide
  | area k => fin_cases k <;> decide

theorem scheduleMode_mem_all (t : ScheduleMode) : t ∈ ScheduleMode.all := by cases t <;> decide

theorem mem_fieldPositions (r : RawParams) (i : Nat) : i ∈ r.fieldPositions ↔ ∃ n, r.fieldIndex n = i := by
  simp [RawParams.fieldPositions, fieldName_mem_all]

/-- Well-formed means that the record passes each check, by name. -/
theorem wf_iff_forall_passes (r : RawParams) : r.wf = true ↔ ∀ c, r.passes c = true := by
  simp [RawParams.wf, paramCheck_mem_all]

/-- A record becomes parameters, unchanged, exactly when it is well-formed. -/
theorem check_ok_iff_wf (r : RawParams) : (∃ p, r.check = .ok p ∧ p.raw = r) ↔ r.wf = true := by
  constructor
  · rintro ⟨p, -, hraw⟩
    exact hraw ▸ p.wf
  · intro hwf
    exact ⟨⟨r, hwf⟩, dif_pos hwf, rfl⟩

theorem passes_indexInjective_iff (r : RawParams) :
    r.passes .indexInjective = true ↔ Function.Injective r.fieldIndex := by
  have hnodup : r.fieldPositions.Nodup ↔ Function.Injective r.fieldIndex := by
    constructor
    · intro h m n hmn
      exact List.inj_on_of_nodup_map h (fieldName_mem_all m) (fieldName_mem_all n) hmn
    · exact fun h => fieldName_all_nodup.map h
  simpa [RawParams.passes] using hnodup

theorem passes_indexRange_iff (r : RawParams) : r.passes .indexRange = true ↔ ∀ n, r.fieldIndex n ≤ 16 := by
  simp [RawParams.passes, fieldName_mem_all]

theorem passes_reservedDisjoint_iff (r : RawParams) :
    r.passes .reservedDisjoint = true ↔ ∀ i ∈ r.reserved, i ≤ 16 ∧ ∀ n, r.fieldIndex n ≠ i := by
  simp [RawParams.passes, mem_fieldPositions]

/-- The check looks a template byte up by number, so it also refuses a reserved number outside the frame; the bound that
`wf_reserved_disjoint` gives rules that case out. -/
theorem passes_reservedZero_iff (r : RawParams) (hle : ∀ i ∈ r.reserved, i ≤ 16) :
    r.passes .reservedZero = true ↔ ∀ i : FramePos, i.val ∈ r.reserved → r.template[i] = 0 := by
  have hpasses : r.passes .reservedZero = true ↔ ∀ i ∈ r.reserved, r.template[i]? = some 0 := by
    simp [RawParams.passes]
  rw [hpasses]
  constructor
  · intro h i hi
    simpa using h i.val hi
  · intro h i hi
    have hlt : i < 18 := Nat.lt_of_le_of_lt (hle i hi) (by decide)
    rw [Vector.getElem?_eq_getElem hlt]
    exact congrArg some (h ⟨i, hlt⟩ hi)

theorem passes_counts_iff (r : RawParams) :
    r.passes .counts = true ↔ 3 ≤ r.nFanSpeeds ∧ r.nFanSpeeds ≤ 6 ∧ r.nVV ≤ 7 ∧ r.nHV ≤ 7 ∧ r.nArea ≤ 3 := by
  simp [RawParams.passes, and_assoc]

theorem passes_iseeNa_iff (r : RawParams) : r.passes .iseeNa = true ↔ r.iseeCode .notApplicable = 0 := by
  simp [RawParams.passes]

theorem passes_zeroCodes_iff (r : RawParams) :
    r.passes .zeroCodes = true ↔ (∀ a, r.areaCode a = 0) ∧ ∀ t, r.tcCode t = 0 := by
  simp [RawParams.passes, areaMode_mem_all, scheduleMode_mem_all]

theorem passes_powerOffAuto_iff (r : RawParams) :
    r.passes .powerOffAuto = true ↔ r.powerOffSettings.climate = .auto := by
  simp [RawParams.passes]

/-- Settles O56: a record has a meaning when it is well-formed, which is to pass the eight checks, and each check is the
condition R9 gives it. -/
theorem parameterChecksDecideMeaning : Obligations.ParameterChecksDecideMeaning := by
  intro r
  rw [check_ok_iff_wf, wf_iff_forall_passes]
  constructor
  · intro h
    have hreserved := (passes_reservedDisjoint_iff r).mp (h .reservedDisjoint)
    exact ⟨(passes_indexInjective_iff r).mp (h .indexInjective), (passes_indexRange_iff r).mp (h .indexRange), hreserved,
      (passes_reservedZero_iff r fun i hi => (hreserved i hi).1).mp (h .reservedZero),
      (passes_counts_iff r).mp (h .counts), (passes_iseeNa_iff r).mp (h .iseeNa),
      (passes_zeroCodes_iff r).mp (h .zeroCodes), (passes_powerOffAuto_iff r).mp (h .powerOffAuto)⟩
  · rintro ⟨hinjective, hrange, hreserved, hzero, hcounts, hisee, hcodes, hauto⟩ c
    cases c with
    | indexInjective => exact (passes_indexInjective_iff r).mpr hinjective
    | indexRange => exact (passes_indexRange_iff r).mpr hrange
    | reservedDisjoint => exact (passes_reservedDisjoint_iff r).mpr hreserved
    | reservedZero => exact (passes_reservedZero_iff r fun i hi => (hreserved i hi).1).mpr hzero
    | counts => exact (passes_counts_iff r).mpr hcounts
    | iseeNa => exact (passes_iseeNa_iff r).mpr hisee
    | zeroCodes => exact (passes_zeroCodes_iff r).mpr hcodes
    | powerOffAuto => exact (passes_powerOffAuto_iff r).mpr hauto

end Sys2Proof.Proofs
end

section
/-! PROOFS. The state of the block: the frame ENCODE makes meets R46, every step keeps the invariant and so every run from reset
answers, which words are illegal in terms of their bits, the status word field by field, and which steps write ERR, TXINFO,
FRAME and OUT. -/

namespace Sys2Proof.Proofs

open Sys2Proof.Machine Sys2Proof.Laws

/-! ### The frame ENCODE makes (R46) -/

/-- The checksum position is not among the bytes the checksum sums. -/
theorem checksumSum_set_checksumIndex (f : Frame) (b : Byte) :
    checksumSum (f.set Config.checksumIndex b) = checksumSum f := by
  have htake : (f.toList.set 17 b).take 17 = f.toList.take 17 := List.take_set_of_le (Nat.le_refl 17)
  simp only [checksumSum, Vector.toList_set]
  exact congrArg (fun l => (l.map BitVec.toNat).sum) htake

/-- The sum of the first 17 bytes, as R46 writes it. -/
theorem checksumSum_eq_sum (f : Frame) : checksumSum f = ∑ i : Fin 17, f[i.castSucc].toNat := by
  have htake : f.toList.take 17 = List.ofFn fun i : Fin 17 => f[i.castSucc] :=
    List.ext_getElem (by simp) fun i _ _ => by simp only [List.getElem_take, List.getElem_ofFn]; rfl
  rw [checksumSum, htake, List.map_ofFn, List.sum_ofFn]
  rfl

theorem checksum_toNat (f : Frame) : (checksum f).toNat = checksumSum f % 256 := by
  simp [checksum]

theorem encodeFrame_checksum (p : Params) (pwr : PowerMode) (st : Settings) (h : BitVec 5) (m : BitVec 6) :
    (encodeFrame p pwr st h m)[Config.checksumIndex].toNat = checksumSum (encodeFrame p pwr st h m) % 256 := by
  simp only [encodeFrame, checksumSum_set_checksumIndex]
  simp [checksum_toNat]

/-- Step 10 of ENCODE writes the checksum position and no other. -/
theorem encodeFrame_of_ne (p : Params) (pwr : PowerMode) (st : Settings) (h : BitVec 5) (m : BitVec 6) {i : FramePos}
    (hi : i ≠ Config.checksumIndex) :
    (encodeFrame p pwr st h m)[i] = (writeFields p (fieldByte p pwr st h m) p.raw.template FieldName.all)[i] := by
  have hne : Config.checksumIndex.val ≠ i.val := fun e => hi (Fin.ext e.symm)
  simp [encodeFrame, hne]

theorem encodeFrame_field (p : Params) (pwr : PowerMode) (st : Settings) (h : BitVec 5) (m : BitVec 6) (n : FieldName) :
    (encodeFrame p pwr st h m)[p.fieldPos n] = fieldByte p pwr st h m n :=
  (encodeFrame_of_ne p pwr st h m (fieldPos_ne_checksum p n)).trans
    (writeFields_field p _ n FieldName.all _ (fieldName_mem_all n))

theorem encodeFrame_template (p : Params) (pwr : PowerMode) (st : Settings) (h : BitVec 5) (m : BitVec 6) {i : FramePos}
    (hi : i ≠ Config.checksumIndex) (hfield : ∀ n, p.fieldPos n ≠ i) :
    (encodeFrame p pwr st h m)[i] = p.raw.template[i] :=
  (encodeFrame_of_ne p pwr st h m hi).trans (writeFields_other p _ i FieldName.all _ fun n _ => hfield n)

theorem temperatureOffset_bounds (temp : BitVec 8) : 0 ≤ temperatureOffset temp ∧ temperatureOffset temp ≤ 15 := by
  simp only [temperatureOffset, clamp, Config.tempMin, Config.tempMax]
  omega

/-- The clamped offset fits the low four bits of the Temperature byte (R46, R135). -/
theorem temperatureByte_le (temp : BitVec 8) : (BitVec.ofInt 8 (temperatureOffset temp)).toNat ≤ 15 := by
  obtain ⟨hlow, hhigh⟩ := temperatureOffset_bounds temp
  rw [BitVec.toNat_ofInt]
  omega

theorem frameInv_encodeFrame (p : Params) (pwr : PowerMode) (st : Settings) (h : BitVec 5) (m : BitVec 6) :
    FrameInv p (encodeFrame p pwr st h m) where
  checksum_byte := encodeFrame_checksum p pwr st h m
  template_bytes _ hi hfield := encodeFrame_template p pwr st h m hi hfield
  temperature_range := by
    rw [encodeFrame_field]
    exact temperatureByte_le st.temperature

/-- A reserved position is neither a field nor the checksum, and its TEMPLATE byte is 0 (R9), so a built frame holds 0 there. -/
theorem reserved_byte_zero {p : Params} {f : Frame} (hf : FrameInv p f) {i : FramePos} (hi : i.val ∈ p.raw.reserved) :
    f[i] = 0 := by
  have hreserved := (passes_reservedDisjoint_iff p.raw).mp (p.passes .reservedDisjoint)
  have hzero := (passes_reservedZero_iff p.raw fun i hi => (hreserved i hi).1).mp (p.passes .reservedZero)
  obtain ⟨hle, hfield⟩ := hreserved i.val hi
  have hchecksum : i ≠ Config.checksumIndex := by
    rintro rfl
    exact absurd hle (by decide)
  rw [hf.template_bytes i hchecksum fun n e => hfield n (congrArg Fin.val e)]
  exact hzero i hi

/-! ### The invariant, by the fields it reads -/

/-- The invariant reads seven fields, so an update of any other keeps it. -/
theorem inv_of_fields_eq {s t : State} (h : Inv s) (frame : t.frame = s.frame := by simp)
    (frameValid : t.frameValid = s.frameValid := by simp) (phase : t.phase = s.phase := by simp)
    (byteIdx : t.byteIdx = s.byteIdx := by simp) (bitIdx : t.bitIdx = s.bitIdx := by simp)
    (repDone : t.repDone = s.repDone := by simp) (repTotal : t.repTotal = s.repTotal := by simp) : Inv t where
  frame_inv := by simpa only [frame, frameValid] using h.frame_inv
  busy_has_frame := by simpa only [frameValid, phase] using h.busy_has_frame
  busy_reps := by simpa only [phase, repDone, repTotal] using h.busy_reps
  header_position := by simpa only [phase, byteIdx, bitIdx] using h.header_position
  footer_position := by simpa only [phase, byteIdx, bitIdx] using h.footer_position

/-- Of an idle sequencer the invariant asks nothing but R46. -/
theorem inv_of_idle {s : State} (hp : s.phase = .idle) (hf : s.frameValid = true → FrameInv Config.params s.frame) : Inv s where
  frame_inv := hf
  busy_has_frame h := absurd hp h
  busy_reps h := absurd hp h
  header_position := by simp [hp]
  footer_position := by simp [hp]

theorem inv_takeTurn {s : State} (h : Inv s) (turn : Turn) (rest : List Turn) : Inv (takeTurn turn rest s) :=
  inv_of_fields_eq h

theorem inv_respond {s : State} (h : Inv s) (v : Word) : Inv (respond v s) := inv_of_fields_eq h

theorem inv_reject {s : State} (h : Inv s) (e : ErrCode) : Inv (reject e s) := inv_of_fields_eq h

theorem inv_clearErrors {s : State} (h : Inv s) : Inv (clearErrors s) := inv_of_fields_eq h

theorem inv_resetBlock (s : State) : Inv (resetBlock s) := inv_of_idle rfl nofun

theorem inv_buildFrame {s : State} (hp : s.phase = .idle) (pwr : PowerMode) (st : Settings) :
    Inv (buildFrame Config.params pwr st s) :=
  inv_of_idle hp fun _ => frameInv_encodeFrame Config.params pwr st s.todHour s.todMinute

/-- START with a frame leaves the counters at the header, and a nonzero count still to do (R170). -/
theorem inv_startTransmission {s : State} (h : Inv s) (hv : s.frameValid = true) (n : BitVec 8) :
    Inv (startTransmission n s) := by
  by_cases hn : n = 0
  · rwa [hn, startTransmission_zero]
  · have hpos : 0 < n := by bv_omega
    rw [startTransmission_of_ne hn]
    exact {
      frame_inv := h.frame_inv
      busy_has_frame := fun _ => hv
      busy_reps := fun _ => hpos
      header_position := fun _ => ⟨rfl, rfl⟩
      footer_position := nofun }

/-! ### The sequencer keeps the invariant -/

/-- The footer is reached only from the last bit of the last byte (R175). -/
theorem inv_advanceBit {s : State} (h : Inv s) (hp : s.phase ≠ .idle) : Inv (advanceBit s) := by
  unfold advanceBit
  have hv := h.busy_has_frame hp
  have hr := h.busy_reps hp
  split
  · exact ⟨h.frame_inv, fun _ => hv, fun _ => hr, nofun, nofun⟩
  next hbit =>
    split
    · exact ⟨h.frame_inv, fun _ => hv, fun _ => hr, nofun, nofun⟩
    next hbyte =>
      have hbit7 : s.bitIdx = 7 := Fin.eq_last_of_not_lt hbit
      have hbyte17 : s.byteIdx = 17 := Fin.eq_last_of_not_lt hbyte
      exact ⟨h.frame_inv, fun _ => hv, fun _ => hr, nofun, fun _ => ⟨hbyte17, hbit7⟩⟩

/-- Another repetition starts only while there is one to do (R177). -/
theorem inv_advanceRepetition {s : State} (h : Inv s) (hp : s.phase ≠ .idle) : Inv (advanceRepetition s) := by
  unfold advanceRepetition
  split
  next hlt => exact ⟨h.frame_inv, fun _ => h.busy_has_frame hp, fun _ => hlt, fun _ => ⟨rfl, rfl⟩, nofun⟩
  · exact inv_of_idle rfl h.frame_inv

theorem inv_advance {s : State} (h : Inv s) : Inv (advance s) := by
  by_cases hidle : s.phase = .idle
  · simpa only [advance, hidle] using h
  have hv := h.busy_has_frame hidle
  have hr := h.busy_reps hidle
  unfold advance
  split
  next => exact h
  next hp => exact ⟨h.frame_inv, fun _ => hv, fun _ => hr, fun _ => h.header_position (.inl hp), nofun⟩
  next => exact ⟨h.frame_inv, fun _ => hv, fun _ => hr, nofun, nofun⟩
  next => exact ⟨h.frame_inv, fun _ => hv, fun _ => hr, nofun, nofun⟩
  next => exact inv_advanceBit h hidle
  next hp => exact ⟨h.frame_inv, fun _ => hv, fun _ => hr, nofun, fun _ => h.footer_position (.inl hp)⟩
  next => exact inv_advanceRepetition h hidle

theorem inv_answerSegment {s : State} (h : Inv s) (sg : Segment) (a : TxAnswer) : Inv (answerSegment sg a s) := by
  cases a with
  | ok => exact inv_advance (inv_of_fields_eq (t := logSegment sg s) h)
  | fail code => exact inv_of_idle rfl h.frame_inv

theorem inv_of_seqTurn {s t : State} (h : Inv s) {a : TxAnswer} (hs : seqTurn Config.params a s = .next t) : Inv t := by
  rcases seqTurn_cases hs with ⟨-, rfl⟩ | ⟨-, sg, -, rfl⟩
  · exact h
  · exact inv_answerSegment h sg a

theorem inv_of_exec {i : Instr} {s t : State} (h : Inv s) (he : exec i s = .next t) : Inv t := by
  rcases exec_cases he with ⟨-, rfl⟩ | ⟨pwr, st, -, hp, rfl⟩ | ⟨rpt, -, -, hv, rfl⟩ | ⟨pwr, st, hp, rfl, -⟩ |
    ⟨idx, -, -, rfl⟩ | ⟨-, rfl⟩ | ⟨-, rfl⟩ | ⟨-, rfl, -⟩ | ⟨-, rfl, -⟩
  · exact inv_respond h 0
  · exact inv_respond (inv_buildFrame hp pwr st) 0
  · exact inv_respond (inv_startTransmission h hv rpt) 0
  · exact inv_respond (inv_startTransmission (inv_buildFrame hp pwr st) rfl _) 0
  · exact inv_respond h _
  · exact inv_respond h _
  · exact inv_respond (inv_clearErrors h) 0
  · exact inv_reject h .busy
  · exact inv_reject h .noFrame

/-- Settles O50: each kind of step keeps the invariant. -/
theorem stepKeepsTheInvariant : Obligations.StepKeepsTheInvariant := by
  intro s t h hstep
  rcases step_cases hstep with ⟨-, rfl⟩ | ⟨w, hour, minute, rest, e, -, -, rfl⟩ |
    ⟨w, hour, minute, rest, i, -, -, he⟩ | ⟨a, rest, -, hs⟩ | ⟨rest, -, rfl⟩
  · exact h
  · exact inv_reject (inv_takeTurn h _ rest) .illegalCmd
  · exact inv_of_exec (inv_takeTurn h _ rest) he
  · exact inv_of_seqTurn (inv_takeTurn h _ rest) hs
  · exact inv_resetBlock _

/-! ### Runs that keep the invariant -/

/-- Settles O49: the reset sequencer is idle and holds no frame. -/
theorem resetMeetsTheInvariant : Obligations.ResetMeetsTheInvariant :=
  fun _ => inv_of_idle rfl nofun

theorem whenIdle_answers_next {run : State → Result} (s : State) (h : ∃ t, run s = .next t) :
    ∃ t, whenIdle s run = .next t := by
  by_cases hp : s.phase = .idle
  · rwa [whenIdle_of_idle hp]
  · exact ⟨_, whenIdle_of_busy hp run⟩

theorem whenFrame_answers_next {run : State → Result} (s : State) (h : s.frameValid = true → ∃ t, run s = .next t) :
    ∃ t, whenFrame s run = .next t := by
  cases hv : s.frameValid with
  | false => exact ⟨_, whenFrame_of_invalid hv run⟩
  | true => rw [whenFrame_of_valid hv]; exact h hv

/-- No command stops the machine: a rejection is a next state too (R241, R251). -/
theorem exec_answers_next (i : Instr) (s : State) : ∃ t, exec i s = .next t := by
  cases i with
  | nop | readStatus | clearStatus => exact ⟨_, rfl⟩
  | build | send | powerOff =>
    simp only [exec, execBuild, execSend, execPowerOff]
    exact whenIdle_answers_next s ⟨_, rfl⟩
  | transmit rpt =>
    simp only [exec, execTransmit]
    exact whenIdle_answers_next s (whenFrame_answers_next s fun _ => ⟨_, rfl⟩)
  | readFrame idx =>
    simp only [exec, execReadFrame]
    exact whenFrame_answers_next s fun hv => ⟨_, by rw [readFrameByte_of_valid hv]⟩

/-- The one fault is a bit space without a frame, which the invariant rules out (R45). -/
theorem seqTurn_answers_next {s : State} (h : Inv s) (a : TxAnswer) : ∃ t, seqTurn Config.params a s = .next t := by
  by_cases hp : s.phase = .idle
  · exact ⟨s, by rw [seqTurn, currentSegment_idle _ hp]⟩
  · obtain ⟨sg, hsg⟩ := currentSegment_exists Config.params hp (h.busy_has_frame hp)
    exact ⟨answerSegment sg a s, by rw [seqTurn, hsg]⟩

theorem step_answers_next {s : State} (h : Inv s) : ∃ t, step s = .next t := by
  cases hturns : s.turns with
  | nil => exact ⟨s, step_of_no_turn hturns⟩
  | cons turn rest =>
    rw [step_of_turn hturns]
    cases turn with
    | host w hour minute =>
      cases hd : decode Config.params w with
      | error e => exact ⟨_, hostTurn_of_error hd _⟩
      | ok i => rw [runTurn, hostTurn_of_ok hd]; exact exec_answers_next i _
    | seq a => exact seqTurn_answers_next (inv_takeTurn h _ rest) a
    | reset => exact ⟨_, rfl⟩

/-- Settles O51: a step answers and keeps the invariant, so the next one answers too. -/
theorem invariantRunsNeverStop : Obligations.InvariantRunsNeverStop := by
  intro k
  induction k with
  | zero => exact fun s h => ⟨s, rfl, h⟩
  | succ k ih =>
    intro s h
    obtain ⟨u, hu⟩ := step_answers_next h
    rw [run_succ_of_next hu]
    exact ih u (stepKeepsTheInvariant s u h hu)

/-- Where a run from reset ends, the invariant holds. -/
theorem inv_of_run_from_reset {turns : List Turn} {k : Nat} {t : State}
    (h : run k { State.reset with turns := turns } = .next t) : Inv t := by
  obtain ⟨u, hu, hinv⟩ := invariantRunsNeverStop k _ (resetMeetsTheInvariant turns)
  rw [h] at hu
  cases hu
  exact hinv

/-- Settles O52: the frame invariants of the state reached, with the checksum written out as a sum and the reserved positions
read off the template. -/
theorem validFramesMeetTheirInvariants : Obligations.ValidFramesMeetTheirInvariants := by
  intro turns k t hrun hv
  have hf := (inv_of_run_from_reset hrun).frame_inv hv
  exact ⟨checksumSum_eq_sum t.frame ▸ hf.checksum_byte, hf.template_bytes, fun i hi => reserved_byte_zero hf hi,
    hf.temperature_range⟩

/-- Settles O38: the read of the addressed byte faults. -/
theorem bitSpaceWithoutAFrameFaults : Obligations.BitSpaceWithoutAFrameFaults := by
  intro s a rest hturns hp hv
  rw [step_of_turn hturns]
  simp [runTurn, seqTurn, currentSegment, hp, readFrameByte_of_invalid, hv]

/-- Settles O42: the reset state is a literal with the values of R44. -/
theorem resetStateValues : Obligations.ResetStateValues :=
  ⟨rfl, rfl, rfl, rfl, rfl, rfl, rfl, rfl, rfl⟩

/-! ### Illegal words, in terms of their bits -/

/-- A check, then the rest: a decoder that does both accepts when the check does and the rest does. `P` says when the rest
accepts, whatever value the check gave. -/
theorem bind_ok_iff {α β : Type} {x : Except Illegal α} {f : α → Except Illegal β} {P : Prop}
    (h : ∀ a, (∃ b, f a = .ok b) ↔ P) : (∃ b, (x >>= f) = .ok b) ↔ (∃ a, x = .ok a) ∧ P := by
  cases x with
  | error e => simp [bind, Except.bind]
  | ok a => simpa [bind, Except.bind] using h a

@[simp] theorem orIllegal_ok_iff {α : Type} (why : Illegal) (o : Option α) :
    (∃ a, orIllegal why o = .ok a) ↔ ¬ o = none := by
  cases o <;> simp [orIllegal]

@[simp] theorem reservedZeroFrom_ok_iff (w : Word) (lo : Nat) : (∃ u, reservedZeroFrom w lo = .ok u) ↔ bits w 63 lo = 0 := by
  unfold reservedZeroFrom
  split <;> simp_all

theorem bits_lt (w : Word) (hi lo : Nat) : bits w hi lo < 2 ^ (hi + 1 - lo) := Nat.mod_lt _ (Nat.two_pow_pos _)

/-- R90: a FAN code names a mode exactly up to 1 + N_FAN_SPEEDS. -/
theorem fan_illegal_iff (p : Params) {k : Nat} (hk : k < 8) :
    keepIf (FanMode.legal p) (some (FanMode.ofOrdinal k)) = none ↔ 1 + p.raw.nFanSpeeds < k := by
  obtain ⟨hthree, -⟩ := (passes_counts_iff p.raw).mp (p.passes .counts)
  interval_cases k <;> simp [keepIf, FanMode.ofOrdinal, FanMode.legal] <;> omega

theorem verticalVane_illegal_iff (p : Params) {k : Nat} (hk : k < 8) :
    keepIf (VerticalVane.legal p) (VerticalVane.ofOrdinal k) = none ↔ p.raw.nVV < k := by
  cases k with
  | zero => simp [keepIf, VerticalVane.ofOrdinal, VerticalVane.legal]
  | succ k => simp [keepIf, VerticalVane.ofOrdinal, VerticalVane.legal, Nat.lt_of_succ_lt_succ hk]

theorem horizontalVane_illegal_iff (p : Params) {k : Nat} (hk : k < 8) :
    keepIf (HorizontalVane.legal p) (HorizontalVane.ofOrdinal k) = none ↔ p.raw.nHV < k := by
  cases k with
  | zero => simp [keepIf, HorizontalVane.ofOrdinal, HorizontalVane.legal]
  | succ k => simp [keepIf, HorizontalVane.ofOrdinal, HorizontalVane.legal, Nat.lt_of_succ_lt_succ hk]

theorem area_illegal_iff (p : Params) {k : Nat} (hk : k < 4) :
    keepIf (AreaMode.legal p) (AreaMode.ofOrdinal k) = none ↔ p.raw.nArea < k := by
  cases k with
  | zero => simp [keepIf, AreaMode.ofOrdinal, AreaMode.legal]
  | succ k => simp [keepIf, AreaMode.ofOrdinal, AreaMode.legal, Nat.lt_of_succ_lt_succ hk]

theorem isee_illegal_iff {k : Nat} (hk : k < 4) : ISeeMode.ofOrdinal k = none ↔ k = 3 := by
  interval_cases k <;> simp [ISeeMode.ofOrdinal]

/-- R95: present, hour and minute make no time exactly when they are an illegal combination. -/
theorem timeOfFields_eq_none_iff {present : Nat} (hp : present < 2) (hour minute : Nat) :
    timeOfFields present hour minute = none ↔ IllegalTime present hour minute := by
  interval_cases present
  · simp only [timeOfFields, ↓reduceIte, ite_eq_right_iff, reduceCtorEq, imp_false, IllegalTime, true_and, zero_ne_one,
      false_and, or_false]
    omega
  · simp only [timeOfFields, one_ne_zero, ↓reduceIte, dite_eq_right_iff, reduceCtorEq, imp_false, IllegalTime, false_and,
      true_and, false_or]
    omega

theorem decodeSettings_ok_iff (p : Params) (w : Word) : (∃ st, decodeSettings p w = .ok st) ↔ ¬ IllegalSettings p w := by
  rw [decodeSettings, bind_ok_iff fun _ => bind_ok_iff fun _ => bind_ok_iff fun _ => bind_ok_iff fun _ =>
    bind_ok_iff fun _ => bind_ok_iff fun _ => bind_ok_iff (P := True) fun _ => by simp]
  simp only [orIllegal_ok_iff, fan_illegal_iff p (bits_lt w 17 15), verticalVane_illegal_iff p (bits_lt w 20 18),
    horizontalVane_illegal_iff p (bits_lt w 23 21), isee_illegal_iff (bits_lt w 25 24), area_illegal_iff p (bits_lt w 27 26),
    timeOfFields_eq_none_iff (bits_lt w 28 28), timeOfFields_eq_none_iff (bits_lt w 40 40), IllegalSettings]
  simp

theorem decodeN_ok_iff (i : Instr) (w : Word) : (∃ j, decodeN i w = .ok j) ↔ bits w 63 4 = 0 := by
  rw [decodeN, bind_ok_iff (P := True) fun _ => by simp]
  simp

theorem decodeBuild_ok_iff (p : Params) (w : Word) :
    (∃ i, decodeBuild p w = .ok i) ↔ bits w 63 52 = 0 ∧ ¬ IllegalSettings p w := by
  rw [decodeBuild, bind_ok_iff fun _ => bind_ok_iff (P := True) fun _ => by simp]
  simp [decodeSettings_ok_iff]

theorem decodeSend_ok_iff (p : Params) (w : Word) :
    (∃ i, decodeSend p w = .ok i) ↔ bits w 63 52 = 0 ∧ ¬ IllegalSettings p w ∧ bits w 4 4 = 0 := by
  rw [decodeSend, bind_ok_iff fun _ => bind_ok_iff (P := bits w 4 4 = 0) fun _ => by split <;> simp_all]
  simp [decodeSettings_ok_iff]

theorem decodeTransmit_ok_iff (w : Word) : (∃ i, decodeTransmit w = .ok i) ↔ bits w 63 12 = 0 := by
  rw [decodeTransmit, bind_ok_iff (P := True) fun _ => by simp]
  simp

theorem decodeReadFrame_ok_iff (w : Word) : (∃ i, decodeReadFrame w = .ok i) ↔ bits w 63 9 = 0 ∧ bits w 8 4 < 18 := by
  rw [decodeReadFrame, bind_ok_iff (P := bits w 8 4 < 18) fun _ => by split <;> simp_all]
  simp

/-- A word decodes exactly when its bits are legal (R86, R87, R99). -/
theorem decode_ok_iff (p : Params) (w : Word) : (∃ i, decode p w = .ok i) ↔ ¬ IllegalWord p w := by
  have hpwr : bits w 4 4 = 0 ↔ ¬ bits w 4 4 = 1 := by
    have := bits_lt w 4 4
    omega
  unfold decode
  split
  next hop => simp [IllegalWord, hop, decodeN_ok_iff]
  next hop => simp [IllegalWord, hop, decodeBuild_ok_iff]
  next hop => simp [IllegalWord, hop, decodeTransmit_ok_iff]
  next hop => simp [IllegalWord, hop, decodeSend_ok_iff, hpwr, and_assoc]
  next hop => simp [IllegalWord, hop, decodeN_ok_iff]
  next hop => simp [IllegalWord, hop, decodeReadFrame_ok_iff, Nat.lt_succ_iff]
  next hop => simp [IllegalWord, hop, decodeN_ok_iff]
  next hop => simp [IllegalWord, hop, decodeN_ok_iff]
  next =>
    have hop : 8 ≤ bits w 3 0 := by grind
    simp [IllegalWord, hop]

theorem illegalWord_of_decode_error {p : Params} {w : Word} {e : Illegal} (h : decode p w = .error e) : IllegalWord p w := by
  by_contra hlegal
  obtain ⟨i, hi⟩ := (decode_ok_iff p w).mpr hlegal
  rw [h] at hi
  cases hi

/-! ### The status word (R38) -/

/-- Concatenation as arithmetic: the left part stands above the `m` bits of the right one. -/
theorem toNat_append_eq_add {n m : Nat} (x : BitVec n) (y : BitVec m) : (x ++ y).toNat = x.toNat * 2 ^ m + y.toNat := by
  rw [BitVec.toNat_append, ← Nat.shiftLeft_add_eq_or_of_lt y.isLt, Nat.shiftLeft_eq]

/-- The status word as a number: each field times the weight of its lowest bit. -/
theorem statusWord_toNat (s : State) :
    (statusWord s).toNat = s.busy.toNat + 2 * s.frameValid.toNat + 2 ^ 4 * s.err.code.toNat + 2 ^ 8 * s.txinfo.toNat +
      2 ^ 16 * s.phase.code.toNat + 2 ^ 20 * s.byteIdx.val + 2 ^ 25 * s.bitIdx.val + 2 ^ 28 * s.repDone.toNat +
      2 ^ 36 * s.repTotal.toNat := by
  have hbyte : s.byteIdx.val % 32 = s.byteIdx.val := Nat.mod_eq_of_lt (by omega)
  rw [statusWord, BitVec.toNat_setWidth_of_le (by decide)]
  simp only [toNat_append_eq_add, BitVec.ofNat_finVal, BitVec.toNat_ofFin, BitVec.toNat_ofNat, BitVec.toNat_ofBool, hbyte,
    Nat.reducePow, Nat.zero_mod]
  omega

/-- Every field of the status word, read back at its place; the gaps between the fields are 0. -/
theorem statusWord_bits (s : State) :
    bits (statusWord s) 0 0 = s.busy.toNat ∧ bits (statusWord s) 1 1 = s.frameValid.toNat ∧ bits (statusWord s) 3 2 = 0 ∧
      bits (statusWord s) 7 4 = s.err.code.toNat ∧ bits (statusWord s) 15 8 = s.txinfo.toNat ∧
      bits (statusWord s) 18 16 = s.phase.code.toNat ∧ bits (statusWord s) 19 19 = 0 ∧
      bits (statusWord s) 24 20 = s.byteIdx.val ∧ bits (statusWord s) 27 25 = s.bitIdx.val ∧
      bits (statusWord s) 35 28 = s.repDone.toNat ∧ bits (statusWord s) 43 36 = s.repTotal.toNat ∧
      bits (statusWord s) 63 44 = 0 := by
  have hbusy := s.busy.toNat_le
  have hvalid := s.frameValid.toNat_le
  simp only [bits, statusWord_toNat]
  and_intros <;> omega

/-- Settles O17: what is left of each field is its code (R34, R35, R242). -/
theorem statusWordLayout : Obligations.StatusWordLayout := by
  intro s
  obtain ⟨hbusy, hvalid, hgap3, herr, hinfo, hphase, hgap19, hbyte, hbit, hdone, htotal, hgap63⟩ := statusWord_bits s
  refine ⟨statusWord s, rfl, hbusy.trans ?_, hvalid.trans ?_, hgap3, herr.trans ?_, hinfo, hphase.trans ?_, hgap19, hbyte,
    hbit, hdone, htotal, hgap63⟩
  · cases hp : s.phase <;> simp [State.busy, hp]
  · cases s.frameValid <;> rfl
  · cases s.err <;> rfl
  · cases s.phase <;> rfl

/-! ### What the composed operations write -/

@[simp] theorem buildAndSend_frame (p : Params) (pwr : PowerMode) (st : Settings) (s : State) :
    (buildAndSend p pwr st s).frame = encodeFrame p pwr st s.todHour s.todMinute := by simp [buildAndSend]
@[simp] theorem buildAndSend_frameValid (p : Params) (pwr : PowerMode) (st : Settings) (s : State) :
    (buildAndSend p pwr st s).frameValid = true := by simp [buildAndSend]
@[simp] theorem buildAndSend_err (p : Params) (pwr : PowerMode) (st : Settings) (s : State) :
    (buildAndSend p pwr st s).err = s.err := by simp [buildAndSend]
@[simp] theorem buildAndSend_txinfo (p : Params) (pwr : PowerMode) (st : Settings) (s : State) :
    (buildAndSend p pwr st s).txinfo = s.txinfo := by simp [buildAndSend]
@[simp] theorem buildAndSend_out (p : Params) (pwr : PowerMode) (st : Settings) (s : State) :
    (buildAndSend p pwr st s).out = s.out := by simp [buildAndSend]

@[simp] theorem answerSegment_frame (sg : Segment) (a : TxAnswer) (s : State) : (answerSegment sg a s).frame = s.frame := by
  cases a <;> simp [answerSegment]
@[simp] theorem answerSegment_frameValid (sg : Segment) (a : TxAnswer) (s : State) :
    (answerSegment sg a s).frameValid = s.frameValid := by
  cases a <;> simp [answerSegment]
@[simp] theorem answerSegment_ok_err (sg : Segment) (s : State) : (answerSegment sg .ok s).err = s.err := by
  simp [answerSegment]
@[simp] theorem answerSegment_ok_txinfo (sg : Segment) (s : State) : (answerSegment sg .ok s).txinfo = s.txinfo := by
  simp [answerSegment]
@[simp] theorem answerSegment_ok_out (sg : Segment) (s : State) : (answerSegment sg .ok s).out = s.out ++ [.seg sg] := by
  simp [answerSegment]
@[simp] theorem answerSegment_fail_err (sg : Segment) (code : BitVec 8) (s : State) :
    (answerSegment sg (.fail code) s).err = .txFail := rfl
@[simp] theorem answerSegment_fail_txinfo (sg : Segment) (code : BitVec 8) (s : State) :
    (answerSegment sg (.fail code) s).txinfo = code := rfl
@[simp] theorem answerSegment_fail_out (sg : Segment) (code : BitVec 8) (s : State) :
    (answerSegment sg (.fail code) s).out = s.out ++ [.txfail sg.level sg.durUs code] := rfl

/-! ### What a command writes -/

/-- A command changes ERR by its own rejection, or by clearing it (R36, R244, R245). -/
theorem exec_err {i : Instr} {s t : State} (h : exec i s = .next t) (herr : t.err ≠ s.err) :
    (t.err = .busy ∧ NeedsIdle i ∧ s.phase ≠ .idle) ∨ (t.err = .noFrame ∧ NeedsFrame i ∧ s.frameValid = false) ∨
      (t.err = .none ∧ i = .clearStatus) := by
  rcases exec_cases h with ⟨-, rfl⟩ | ⟨pwr, st, -, -, rfl⟩ | ⟨rpt, -, -, -, rfl⟩ | ⟨pwr, st, -, rfl, -⟩ |
    ⟨idx, -, -, rfl⟩ | ⟨-, rfl⟩ | ⟨hi, rfl⟩ | ⟨hp, rfl, hi⟩ | ⟨hv, rfl, hi⟩
  · exact absurd rfl herr
  · exact absurd rfl herr
  · simp at herr
  · simp at herr
  · exact absurd rfl herr
  · exact absurd rfl herr
  · exact .inr (.inr ⟨rfl, hi⟩)
  · have hneeds : NeedsIdle i := by rcases hi with ⟨_, _, rfl⟩ | ⟨_, rfl⟩ | ⟨_, rfl⟩ | rfl <;> trivial
    exact .inl ⟨rfl, hneeds, hp⟩
  · have hneeds : NeedsFrame i := by rcases hi with ⟨_, rfl, -⟩ | ⟨_, rfl⟩ <;> trivial
    exact .inr (.inl ⟨rfl, hneeds, hv⟩)

/-- The only command that writes TXINFO is CLEAR_STATUS (R37). -/
theorem exec_txinfo {i : Instr} {s t : State} (h : exec i s = .next t) :
    t.txinfo = s.txinfo ∨ (i = .clearStatus ∧ t.txinfo = 0) := by
  rcases exec_cases h with ⟨-, rfl⟩ | ⟨pwr, st, -, -, rfl⟩ | ⟨rpt, -, -, -, rfl⟩ | ⟨pwr, st, -, rfl, -⟩ |
    ⟨idx, -, -, rfl⟩ | ⟨-, rfl⟩ | ⟨hi, rfl⟩ | ⟨-, rfl, -⟩ | ⟨-, rfl, -⟩
  · exact .inl rfl
  · exact .inl rfl
  · exact .inl (by simp)
  · exact .inl (by simp)
  · exact .inl rfl
  · exact .inl rfl
  · exact .inr ⟨hi, rfl⟩
  · exact .inl rfl
  · exact .inl rfl

/-- No command writes OUT (R40). -/
theorem exec_out {i : Instr} {s t : State} (h : exec i s = .next t) : t.out = s.out := by
  rcases exec_cases h with ⟨-, rfl⟩ | ⟨pwr, st, -, -, rfl⟩ | ⟨rpt, -, -, -, rfl⟩ | ⟨pwr, st, -, rfl, -⟩ |
    ⟨idx, -, -, rfl⟩ | ⟨-, rfl⟩ | ⟨-, rfl⟩ | ⟨-, rfl, -⟩ | ⟨-, rfl, -⟩
  all_goals simp

/-- A command leaves FRAME and FRAME_VALID, or builds the whole frame of its own operands at the present port levels (R43,
R64). -/
theorem exec_frame {i : Instr} {s t : State} (h : exec i s = .next t) :
    (t.frame = s.frame ∧ t.frameValid = s.frameValid) ∨
    ∃ pwr st, (i = .build pwr st ∨ (i = .send st ∧ pwr = .powerOn) ∨
        (i = .powerOff ∧ pwr = .powerOff ∧ st = Config.params.raw.powerOffSettings)) ∧
      s.phase = .idle ∧ t.frame = encodeFrame Config.params pwr st s.todHour s.todMinute ∧ t.frameValid = true := by
  rcases exec_cases h with ⟨-, rfl⟩ | ⟨pwr, st, hi, hp, rfl⟩ | ⟨rpt, -, -, -, rfl⟩ | ⟨pwr, st, hp, rfl, hi⟩ |
    ⟨idx, -, -, rfl⟩ | ⟨-, rfl⟩ | ⟨-, rfl⟩ | ⟨-, rfl, -⟩ | ⟨-, rfl, -⟩
  · exact .inl ⟨rfl, rfl⟩
  · exact .inr ⟨pwr, st, .inl hi, hp, rfl, rfl⟩
  · exact .inl ⟨by simp, by simp⟩
  · exact .inr ⟨pwr, st, .inr hi, hp, by simp, by simp⟩
  · exact .inl ⟨rfl, rfl⟩
  · exact .inl ⟨rfl, rfl⟩
  · exact .inl ⟨rfl, rfl⟩
  · exact .inl ⟨rfl, rfl⟩
  · exact .inl ⟨rfl, rfl⟩

/-! ### What a step writes -/

/-- Settles O44: a rejected word, a command, a failed segment and a reset are the steps that can change ERR. -/
theorem errorCodeHasFewWriters : Obligations.ErrorCodeHasFewWriters := by
  intro s t hstep herr
  rcases step_cases hstep with ⟨-, rfl⟩ | ⟨w, hour, minute, rest, e, hturns, hd, rfl⟩ |
    ⟨w, hour, minute, rest, i, hturns, hd, he⟩ | ⟨a, rest, hturns, hs⟩ | ⟨rest, hturns, rfl⟩
  · exact absurd rfl herr
  · exact .inl ⟨w, hour, minute, rest, hturns, .inl ⟨rfl, illegalWord_of_decode_error hd⟩⟩
  · exact .inl ⟨w, hour, minute, rest, hturns, .inr ⟨i, hd, by simpa using exec_err he (by simpa using herr)⟩⟩
  · rcases seqTurn_cases hs with ⟨-, rfl⟩ | ⟨hp, sg, -, rfl⟩
    · simp at herr
    · cases a with
      | ok => simp at herr
      | fail code => exact .inr (.inl ⟨code, rest, hturns, rfl, hp⟩)
  · exact .inr (.inr ⟨rest, hturns, rfl⟩)

/-- Settles O45: a failed segment, CLEAR_STATUS and a reset are the steps that can change TXINFO. -/
theorem failureInfoHasFewWriters : Obligations.FailureInfoHasFewWriters := by
  intro s t hstep hinfo
  rcases step_cases hstep with ⟨-, rfl⟩ | ⟨w, hour, minute, rest, e, -, -, rfl⟩ |
    ⟨w, hour, minute, rest, i, hturns, hd, he⟩ | ⟨a, rest, hturns, hs⟩ | ⟨rest, hturns, rfl⟩
  · exact absurd rfl hinfo
  · simp at hinfo
  · rcases exec_txinfo he with hsame | ⟨rfl, hzero⟩
    · simp [hsame] at hinfo
    · exact .inr (.inl ⟨w, hour, minute, rest, hturns, hd, hzero⟩)
  · rcases seqTurn_cases hs with ⟨-, rfl⟩ | ⟨-, sg, -, rfl⟩
    · simp at hinfo
    · cases a with
      | ok => simp at hinfo
      | fail code => exact .inl ⟨code, rest, hturns, rfl, rfl⟩
  · exact .inr (.inr ⟨rest, hturns, rfl⟩)

/-- Settles O46: only a command that builds a frame, and a reset, touch FRAME or FRAME_VALID. -/
theorem frameHasFewWriters : Obligations.FrameHasFewWriters := by
  intro s t hstep
  rcases step_cases hstep with ⟨-, rfl⟩ | ⟨w, hour, minute, rest, e, -, -, rfl⟩ |
    ⟨w, hour, minute, rest, i, hturns, hd, he⟩ | ⟨a, rest, -, hs⟩ | ⟨rest, hturns, rfl⟩
  · exact .inl ⟨rfl, rfl⟩
  · exact .inl ⟨by simp, by simp⟩
  · rcases exec_frame he with hsame | ⟨pwr, st, hi, hp, hframe, hvalid⟩
    · exact .inl (by simpa using hsame)
    · exact .inr (.inl ⟨w, hour, minute, rest, i, pwr, st, hturns, hd, hi, hp, hframe, hvalid⟩)
  · rcases seqTurn_cases hs with ⟨-, rfl⟩ | ⟨-, sg, -, rfl⟩
    · exact .inl ⟨by simp, by simp⟩
    · exact .inl ⟨by simp, by simp⟩
  · exact .inr (.inr ⟨rest, hturns, rfl⟩)

/-- Settles O47: only an answered segment and a reset write OUT, each by one entry at its end. -/
theorem outIsAppendOnly : Obligations.OutIsAppendOnly := by
  intro s t hstep
  rcases step_cases hstep with ⟨-, rfl⟩ | ⟨w, hour, minute, rest, e, -, -, rfl⟩ |
    ⟨w, hour, minute, rest, i, -, -, he⟩ | ⟨a, rest, hturns, hs⟩ | ⟨rest, hturns, rfl⟩
  · exact .inl rfl
  · exact .inl (by simp)
  · exact .inl (by simpa using exec_out he)
  · rcases seqTurn_cases hs with ⟨-, rfl⟩ | ⟨-, sg, -, rfl⟩
    · exact .inl (by simp)
    · cases a with
      | ok => exact .inr (.inl ⟨sg, rest, hturns, by simp⟩)
      | fail code => exact .inr (.inr (.inl ⟨sg.level, sg.durUs, code, rest, hturns, by simp⟩))
  · exact .inr (.inr (.inr ⟨rest, hturns, by simp⟩))

end Sys2Proof.Proofs
end

section
/-! PROOFS. The frame and the transmission as the commands of HOST see them: reads change nothing, equal builds give equal
frames, and a transmission in progress emits the stream fixed at its start whatever HOST issues meanwhile. -/

namespace Sys2Proof.Proofs

open Sys2Proof.Machine Sys2Proof.Laws

/-! ### The segments of a stream by their number (R180) -/

/-- In a concatenation of lists of one length `c`, entry `c * i + j` is entry `j` of the `i`-th list. -/
theorem getElem?_flatten_of_uniform {α : Type} {c i j : Nat} {ls : List (List α)} (hc : ∀ l ∈ ls, l.length = c)
    (hj : j < c) : ls.flatten[c * i + j]? = ls[i]?.bind (·[j]?) := by
  induction ls generalizing i with
  | nil => simp
  | cons l ls ih =>
    have hl : l.length = c := hc l List.mem_cons_self
    cases i with
    | zero => simp [List.getElem?_append_left, hl, hj]
    | succ i =>
      have hindex : c * (i + 1) + j = l.length + (c * i + j) := by rw [hl, Nat.mul_succ]; omega
      rw [List.flatten_cons, hindex, List.getElem?_append_right (Nat.le_add_right _ _), Nat.add_sub_cancel_left,
        ih fun l h => hc l (List.mem_cons_of_mem _ h), List.getElem?_cons_succ]

@[simp] theorem byteBits_length (b : Byte) : (byteBits b).length = 8 := by simp [byteBits]

@[simp] theorem frameBits_length (f : Frame) : (frameBits f).length = 144 := by simp [frameBits]

@[simp] theorem bitSegments_length (p : Params) (bit : Bool) : (bitSegments p bit).length = 2 := rfl

@[simp] theorem frameSegments_length (p : Params) (f : Frame) : (frameSegments p f).length = 288 := by
  simp [frameSegments]

@[simp] theorem repetition_length (p : Params) (f : Frame) : (repetition p f).length = 292 := by simp [repetition]

@[simp] theorem stream_length (p : Params) (f : Frame) (n : Nat) : (stream p f n).length = 292 * n := by
  simp [stream, Nat.mul_comm]

/-- Bit `j` of byte `i` is the frame's bit `8 i + j` (R62, R63). -/
theorem frameBits_getElem? (f : Frame) (i : FramePos) (j : Fin 8) :
    (frameBits f)[8 * i.val + j.val]? = some (f[i].getLsbD j.val) := by
  rw [frameBits, List.flatMap_def, getElem?_flatten_of_uniform (by simp) j.isLt]
  simp [byteBits]

/-- The two segments of a frame bit (R111). -/
theorem frameSegments_getElem? (p : Params) {f : Frame} {b : Nat} {bit : Bool} (hb : (frameBits f)[b]? = some bit) {j : Nat}
    (hj : j < 2) : (frameSegments p f)[2 * b + j]? = (bitSegments p bit)[j]? := by
  rw [frameSegments, List.flatMap_def,
    getElem?_flatten_of_uniform (List.forall_mem_map.mpr fun bit _ => bitSegments_length p bit) hj]
  simp [hb]

/-- The 288 frame segments stand between the two of the header and the two of the footer. -/
theorem repetition_getElem?_body (p : Params) (f : Frame) {k : Nat} (hk : k < 288) :
    (repetition p f)[2 + k]? = (frameSegments p f)[k]? := by
  simp [repetition, Nat.add_comm 2 k, List.getElem?_append_left, hk]

theorem repetition_getElem?_footer (p : Params) (f : Frame) (k : Nat) :
    (repetition p f)[290 + k]? = [markSegment p.timing.rptMark, spaceSegment p.timing.rptSpace][k]? := by
  rw [repetition, List.getElem?_append_right (by simp)]
  simp

theorem stream_getElem? (p : Params) (f : Frame) {n i j : Nat} (hi : i < n) (hj : j < 292) :
    (stream p f n)[292 * i + j]? = (repetition p f)[j]? := by
  rw [stream, getElem?_flatten_of_uniform (by simp) hj]
  simp [hi]

/-! ### Where the sequencer stands in its stream (R172 to R177) -/

/-- The number, within its repetition, of the segment the current phase emits. -/
def segmentOffset (s : State) : Nat :=
  match s.phase with
  | .idle => 0
  | .hdrMark => 0
  | .hdrSpace => 1
  | .bitMark => 2 + (2 * (8 * s.byteIdx.val + s.bitIdx.val) + 0)
  | .bitSpace => 2 + (2 * (8 * s.byteIdx.val + s.bitIdx.val) + 1)
  | .ftrMark => 290
  | .ftrSpace => 291

/-- The number of segments the counters say were emitted: whole repetitions and the part of the current one. -/
def segmentsDone (s : State) : Nat := 292 * s.repDone.toNat + segmentOffset s

theorem segmentOffset_lt (s : State) : segmentOffset s < 292 := by
  unfold segmentOffset
  split <;> omega

/-- The segment on offer is the repetition's segment at the sequencer's place. -/
theorem currentSegment_eq_repetition (p : Params) {s : State} (hp : s.phase ≠ .idle) (hv : s.frameValid = true) :
    ∃ sg, currentSegment p s = .ok (some sg) ∧ (repetition p s.frame)[segmentOffset s]? = some sg := by
  have hbit := frameBits_getElem? s.frame s.byteIdx s.bitIdx
  cases hphase : s.phase with
  | idle => exact absurd hphase hp
  | hdrMark | hdrSpace => simp [currentSegment, segmentOffset, hphase, repetition]
  | bitMark =>
    refine ⟨markSegment p.timing.bitMark, by simp [currentSegment, hphase], ?_⟩
    simp only [segmentOffset, hphase]
    rw [repetition_getElem?_body p s.frame (by omega), frameSegments_getElem? p hbit (by decide)]
    rfl
  | bitSpace =>
    refine ⟨_, currentSegment_bitSpace p hphase hv, ?_⟩
    simp only [segmentOffset, hphase]
    rw [repetition_getElem?_body p s.frame (by omega), frameSegments_getElem? p hbit (by decide)]
    rfl
  | ftrMark =>
    simp only [segmentOffset, hphase]
    exact ⟨markSegment p.timing.rptMark, by simp [currentSegment, hphase], repetition_getElem?_footer p s.frame 0⟩
  | ftrSpace =>
    simp only [segmentOffset, hphase]
    exact ⟨spaceSegment p.timing.rptSpace, by simp [currentSegment, hphase], repetition_getElem?_footer p s.frame 1⟩

/-- A transmission of frame `f` with `n` repetitions is in progress, and `k` of its segments were emitted. -/
structure Transmitting (n : BitVec 8) (f : Frame) (k : Nat) (s : State) : Prop where
  has_frame : s.frameValid = true
  frame_eq : s.frame = f
  total : s.repTotal = n
  active : s.phase ≠ .idle
  reps : s.repDone < n
  done : segmentsDone s = k

/-- A transmission reads seven fields, so an update of any other leaves it where it is. -/
theorem transmitting_of_fields_eq {n : BitVec 8} {f : Frame} {k : Nat} {s t : State} (h : Transmitting n f k s)
    (frame : t.frame = s.frame := by simp) (frameValid : t.frameValid = s.frameValid := by simp)
    (phase : t.phase = s.phase := by simp) (byteIdx : t.byteIdx = s.byteIdx := by simp)
    (bitIdx : t.bitIdx = s.bitIdx := by simp) (repDone : t.repDone = s.repDone := by simp)
    (repTotal : t.repTotal = s.repTotal := by simp) : Transmitting n f k t where
  has_frame := frameValid.trans h.has_frame
  frame_eq := frame.trans h.frame_eq
  total := repTotal.trans h.total
  active := by simpa only [phase] using h.active
  reps := by simpa only [repDone] using h.reps
  done := by simpa only [segmentsDone, segmentOffset, phase, byteIdx, bitIdx, repDone] using h.done

theorem transmitting_of_atStart {n : BitVec 8} {s : State} (h : AtStart n s) : Transmitting n s.frame 0 s where
  has_frame := h.has_frame
  frame_eq := rfl
  total := h.total
  active := by simp [h.phase_header]
  reps := by
    have := h.some_rep
    rw [h.none_done]
    bv_omega
  done := by simp [segmentsDone, segmentOffset, h.phase_header, h.none_done]

/-- The segment on offer is the next one of the stream. -/
theorem currentSegment_eq_stream (p : Params) {n : BitVec 8} {f : Frame} {k : Nat} {s : State} (h : Transmitting n f k s) :
    ∃ sg, currentSegment p s = .ok (some sg) ∧ (stream p f n.toNat)[k]? = some sg := by
  obtain ⟨sg, hsg, hrep⟩ := currentSegment_eq_repetition p h.active h.has_frame
  refine ⟨sg, hsg, ?_⟩
  rw [← h.done, segmentsDone, stream_getElem? p f h.reps (segmentOffset_lt s), ← h.frame_eq, hrep]

theorem segmentsDone_advanceBit {s : State} (hp : s.phase = .bitSpace) :
    segmentsDone (advanceBit s) = segmentsDone s + 1 := by
  unfold advanceBit
  split
  next hbit =>
    have : (s.bitIdx + 1).val = s.bitIdx.val + 1 := by omega
    simp only [segmentsDone, segmentOffset, hp]
    omega
  next hbit =>
    split
    next hbyte =>
      have : (s.byteIdx + 1).val = s.byteIdx.val + 1 := by omega
      simp only [segmentsDone, segmentOffset, hp]
      omega
    next hbyte =>
      simp only [segmentsDone, segmentOffset, hp]
      omega

theorem segmentsDone_advanceRepetition {s : State} (hp : s.phase = .ftrSpace) (hr : s.repDone < s.repTotal) :
    segmentsDone (advanceRepetition s) = segmentsDone s + 1 := by
  have hrep : (s.repDone + 1).toNat = s.repDone.toNat + 1 := by bv_omega
  unfold advanceRepetition
  split
  all_goals
    simp only [segmentsDone, segmentOffset, hp, hrep]
    omega

/-- ADVANCE moves the sequencer on by one segment. -/
theorem segmentsDone_advance {s : State} (hp : s.phase ≠ .idle) (hr : s.repDone < s.repTotal) :
    segmentsDone (advance s) = segmentsDone s + 1 := by
  cases hphase : s.phase with
  | idle => exact absurd hphase hp
  | hdrMark | ftrMark => simp only [advance, segmentsDone, segmentOffset, hphase]
  | hdrSpace | bitMark => simp only [advance, segmentsDone, segmentOffset, hphase]; rfl
  | bitSpace => simpa only [advance, hphase] using segmentsDone_advanceBit hphase
  | ftrSpace => simpa only [advance, hphase] using segmentsDone_advanceRepetition hphase hr

/-- ADVANCE leaves a repetition to do, or the sequencer is idle with all of them done. -/
theorem advance_active_or_finished {s : State} (hp : s.phase ≠ .idle) (hr : s.repDone < s.repTotal) :
    ((advance s).phase ≠ .idle ∧ (advance s).repDone < s.repTotal) ∨
      ((advance s).phase = .idle ∧ (advance s).repDone = s.repTotal) := by
  cases hphase : s.phase with
  | idle => exact absurd hphase hp
  | hdrMark | hdrSpace | bitMark | ftrMark => simp [advance, hphase, hr]
  | bitSpace =>
    simp only [advance, hphase, advanceBit]
    split
    · simp [hr]
    · split <;> simp [hr]
  | ftrSpace =>
    simp only [advance, hphase, advanceRepetition]
    split
    next hlt => exact .inl ⟨nofun, hlt⟩
    next hge => exact .inr ⟨rfl, by bv_omega⟩

/-- An accepted segment that is not the last leaves the transmission in progress, one segment further. -/
theorem transmitting_advance {n : BitVec 8} {f : Frame} {k : Nat} {s : State} (h : Transmitting n f k s)
    (hk : k + 1 < 292 * n.toNat) : Transmitting n f (k + 1) (advance s) := by
  obtain ⟨has_frame, frame_eq, total, active, reps, done⟩ := h
  subst total
  have hdone := segmentsDone_advance active reps
  rcases advance_active_or_finished active reps with ⟨hactive, hreps⟩ | ⟨hidle, hall⟩
  · exact ⟨by simpa, by simpa, by simp, hactive, hreps, by omega⟩
  · have hfinal : segmentsDone (advance s) = 292 * s.repTotal.toNat := by
      simp [segmentsDone, segmentOffset, hidle, hall]
    omega

/-! ### What HOST can do meanwhile (R71, R73) -/

/-- A command issued while a transmission is in progress writes ERR, TXINFO and the response, and nothing else. -/
theorem exec_of_busy {i : Instr} {s t : State} (hp : s.phase ≠ .idle) (h : exec i s = .next t) :
    ∃ err txinfo resp, t = { s with err, txinfo, resp } := by
  rcases exec_cases h with ⟨-, rfl⟩ | ⟨pwr, st, -, hidle, -⟩ | ⟨rpt, -, hidle, -⟩ | ⟨pwr, st, hidle, -⟩ |
    ⟨idx, -, -, rfl⟩ | ⟨-, rfl⟩ | ⟨-, rfl⟩ | ⟨-, rfl, -⟩ | ⟨-, rfl, -⟩
  · exact ⟨_, _, _, rfl⟩
  · exact absurd hidle hp
  · exact absurd hidle hp
  · exact absurd hidle hp
  all_goals exact ⟨_, _, _, rfl⟩

/-- No command touches the turns to come. -/
theorem exec_turns {i : Instr} {s t : State} (h : exec i s = .next t) : t.turns = s.turns := by
  rcases exec_cases h with ⟨-, rfl⟩ | ⟨pwr, st, -, -, rfl⟩ | ⟨rpt, -, -, -, rfl⟩ | ⟨pwr, st, -, rfl, -⟩ |
    ⟨idx, -, -, rfl⟩ | ⟨-, rfl⟩ | ⟨-, rfl⟩ | ⟨-, rfl, -⟩ | ⟨-, rfl, -⟩
  all_goals simp [buildAndSend]

/-- A HOST turn with any word answers, adds nothing to OUT and leaves a transmission in progress where it is. -/
theorem step_host {s : State} {w : Word} {hour : BitVec 5} {minute : BitVec 6} {rest : List Turn}
    (hturns : s.turns = .host w hour minute :: rest) :
    ∃ t, step s = .next t ∧ t.turns = rest ∧ t.out = s.out ∧
      ∀ n f k, Transmitting n f k s → Transmitting n f k t := by
  rw [step_of_turn hturns]
  cases hd : decode Config.params w with
  | error e =>
    exact ⟨_, hostTurn_of_error hd _, by simp, by simp, fun n f k h => transmitting_of_fields_eq h⟩
  | ok i =>
    obtain ⟨t, ht⟩ := exec_answers_next i (takeTurn (.host w hour minute) rest s)
    refine ⟨t, (hostTurn_of_ok hd _).trans ht, by simp [exec_turns ht], by simp [exec_out ht], fun n f k h => ?_⟩
    obtain ⟨err, txinfo, resp, rfl⟩ := exec_of_busy (by simpa using h.active) ht
    exact transmitting_of_fields_eq h

/-- A SEQ turn that TX accepts emits the stream's next segment, and the transmission goes on unless it was the last. -/
theorem step_seq_ok {n : BitVec 8} {f : Frame} {k : Nat} {s : State} {rest : List Turn} (h : Transmitting n f k s)
    (hturns : s.turns = .seq .ok :: rest) :
    ∃ t sg, step s = .next t ∧ t.turns = rest ∧ (stream Config.params f n.toNat)[k]? = some sg ∧
      t.out = s.out ++ [.seg sg] ∧ (k + 1 < 292 * n.toNat → Transmitting n f (k + 1) t) := by
  have htaken : Transmitting n f k (takeTurn (.seq .ok) rest s) := transmitting_of_fields_eq h
  obtain ⟨sg, hsg, hstream⟩ := currentSegment_eq_stream Config.params htaken
  have hlogged : Transmitting n f k (logSegment sg (takeTurn (.seq .ok) rest s)) := transmitting_of_fields_eq htaken
  refine ⟨advance (logSegment sg (takeTurn (.seq .ok) rest s)), sg, ?_, by simp, hstream, by simp,
    transmitting_advance hlogged⟩
  rw [step_of_turn hturns, runTurn, seqTurn, hsg]
  rfl

/-- From the `k`-th segment on, harmless turns emit one segment of the stream per SEQ turn. Once the stream is out nothing is
asked of the state: HOST may do anything then, and no SEQ turn is left. -/
theorem run_emits_stream {n : BitVec 8} {f : Frame} {ts rest : List Turn} {k : Nat} {s : State}
    (h : k < 292 * n.toNat → Transmitting n f k s) (hturns : s.turns = ts ++ rest) (hts : ts.all Turn.harmless = true)
    (hcount : k + ts.countP Turn.isSeq ≤ 292 * n.toNat) :
    ∃ t, run ts.length s = .next t ∧ t.turns = rest ∧
      t.out = s.out ++ segEntries (((stream Config.params f n.toNat).drop k).take (ts.countP Turn.isSeq)) := by
  induction ts generalizing k s with
  | nil => exact ⟨s, rfl, hturns, by simp [segEntries]⟩
  | cons turn ts ih =>
    obtain ⟨hturn, hts⟩ : turn.harmless = true ∧ ts.all Turn.harmless = true := by simpa using hts
    cases turn with
    | host w hour minute =>
      have hsame : (Turn.host w hour minute :: ts).countP Turn.isSeq = ts.countP Turn.isSeq :=
        List.countP_cons_of_neg (by simp [Turn.isSeq])
      rw [hsame] at hcount ⊢
      obtain ⟨u, hu, huturns, huout, hkeeps⟩ := step_host hturns
      obtain ⟨t, ht, htturns, htout⟩ := ih (fun hk => hkeeps n f k (h hk)) huturns hts hcount
      exact ⟨t, (run_succ_of_next hu _).trans ht, htturns, huout ▸ htout⟩
    | seq answer =>
      cases answer with
      | fail code => simp [Turn.harmless] at hturn
      | ok =>
        have hmore : (Turn.seq .ok :: ts).countP Turn.isSeq = ts.countP Turn.isSeq + 1 := List.countP_cons_of_pos rfl
        rw [hmore] at hcount ⊢
        obtain ⟨u, sg, hu, huturns, hsg, huout, hgoes⟩ := step_seq_ok (h (by omega)) hturns
        obtain ⟨t, ht, htturns, htout⟩ := ih hgoes huturns hts (by omega)
        refine ⟨t, (run_succ_of_next hu _).trans ht, htturns, ?_⟩
        obtain ⟨hk, hget⟩ := List.getElem?_eq_some_iff.mp hsg
        rw [htout, huout, List.drop_eq_getElem_cons hk, hget]
        simp [segEntries]
    | reset => simp [Turn.harmless] at hturn

/-- Settles O54: the run from the start of the transmission, where no segment is out yet. -/
theorem hostCommandsLeaveTheStreamAlone : Obligations.HostCommandsLeaveTheStreamAlone := by
  intro n s ts rest hstart hturns hts hcount
  simpa using run_emits_stream (fun _ => transmitting_of_atStart hstart) hturns hts (by omega)

/-- Settles O48: of the steps that can write FRAME, a build needs an idle sequencer, and the other is a reset. -/
theorem transmissionSeesAConstantFrame : Obligations.TransmissionSeesAConstantFrame := by
  intro s t turn rest hp hturns hreset hstep
  rcases frameHasFewWriters s t hstep with hsame | ⟨_, _, _, _, _, _, _, -, -, -, hidle, -⟩ | ⟨rest', hturns', -⟩
  · exact hsame
  · exact absurd hidle hp
  · exact absurd (List.cons.inj (hturns.symm.trans hturns')).1 hreset

/-! ### Commands of HOST -/

/-- Settles O8: taking a HOST turn sets the ports, and the turn's word is decoded. -/
theorem stepRunsTheDecodedCommand : Obligations.StepRunsTheDecodedCommand := by
  intro s w h m rest i hturns hd
  rw [step_of_turn hturns]
  exact hostTurn_of_ok hd _

theorem exec_readFrame_of_valid {s : State} (hv : s.frameValid = true) (idx : FramePos) :
    exec (.readFrame idx) s = .next (respond (s.frame[idx].setWidth 64) s) := by
  rw [exec, execReadFrame, whenFrame_of_valid hv, readFrameByte_of_valid hv]

/-- Settles O22: each read writes the response and reads other fields only, so it reads the same again. -/
theorem readsHaveNoSideEffects : Obligations.ReadsHaveNoSideEffects := by
  intro s
  constructor
  · exact ⟨statusWord s, rfl, rfl⟩
  · intro idx hv
    exact ⟨_, exec_readFrame_of_valid hv idx, exec_readFrame_of_valid (s := respond _ s) hv idx⟩

theorem exec_build_of_idle {s : State} (hp : s.phase = .idle) (pwr : PowerMode) (st : Settings) :
    exec (.build pwr st) s = .next (respond 0 (buildFrame Config.params pwr st s)) := by
  rw [exec, execBuild, whenIdle_of_idle hp]

/-- The step of a BUILD turn on an idle sequencer: the frame depends on the word and the port levels of the turn alone. -/
theorem step_build {s : State} {w : Word} {h : BitVec 5} {m : BitVec 6} {rest : List Turn} {pwr : PowerMode} {st : Settings}
    (hturns : s.turns = .host w h m :: rest) (hd : decode Config.params w = .ok (.build pwr st)) (hp : s.phase = .idle) :
    ∃ t, step s = .next t ∧ t.frame = encodeFrame Config.params pwr st h m ∧ t.frameValid = true := by
  rw [step_of_turn hturns, runTurn, hostTurn_of_ok hd, exec_build_of_idle ((takeTurn_phase _ rest s).trans hp)]
  exact ⟨_, rfl, rfl, rfl⟩

/-- Settles O31: both steps leave ENCODE of the same operands and the same port levels. -/
theorem equalBuildsGiveEqualFrames : Obligations.EqualBuildsGiveEqualFrames := by
  intro s s' w h m rest rest' pwr st hturns hturns' hd hp hp'
  obtain ⟨t, ht, hframe, hvalid⟩ := step_build hturns hd hp
  obtain ⟨t', ht', hframe', hvalid'⟩ := step_build hturns' hd hp'
  exact ⟨t, t', ht, ht', hframe.trans hframe'.symm, hvalid, hvalid'⟩

end Sys2Proof.Proofs
end

section
/-! PROOFS. The encoding of commands. Which word stands for a command is said once, as equations between the bits of the word and
the ordinals of the operands (`Carries`, the tables of R81 to R84). DECODE answers a command exactly when the word carries it and
the command is well-formed, and ENCODE gives the one word that carries it; the statements about words follow from these two. -/

namespace Sys2Proof.Proofs

open Sys2Proof.Machine Sys2Proof.Laws

/-! ### The code of each operand (R88 to R96) -/

theorem powerMode_ordinal_ofOrdinal {k : Nat} (hk : k < 2) : (PowerMode.ofOrdinal k).ordinal = k := by
  interval_cases k <;> rfl

theorem climateMode_ordinal_ofOrdinal {k : Nat} (hk : k < 4) : (ClimateMode.ofOrdinal k).ordinal = k := by
  interval_cases k <;> rfl

theorem fanMode_ordinal_ofOrdinal {k : Nat} (hk : k < 8) : (FanMode.ofOrdinal k).ordinal = k := by
  interval_cases k <;> rfl

theorem verticalVane_ordinal_of_ofOrdinal {k : Nat} {v : VerticalVane} (h : VerticalVane.ofOrdinal k = some v) :
    v.ordinal = k := by
  cases k with
  | zero => cases h; rfl
  | succ k =>
    obtain ⟨_, ⟨⟩⟩ := Option.dite_none_right_eq_some.mp h
    rfl

theorem horizontalVane_ordinal_of_ofOrdinal {k : Nat} {v : HorizontalVane} (h : HorizontalVane.ofOrdinal k = some v) :
    v.ordinal = k := by
  cases k with
  | zero => cases h; rfl
  | succ k =>
    obtain ⟨_, ⟨⟩⟩ := Option.dite_none_right_eq_some.mp h
    rfl

theorem iseeMode_ordinal_of_ofOrdinal {k : Nat} {m : ISeeMode} (h : ISeeMode.ofOrdinal k = some m) : m.ordinal = k := by
  unfold ISeeMode.ofOrdinal at h
  split at h <;> cases h <;> rfl

theorem areaMode_ordinal_of_ofOrdinal {k : Nat} {a : AreaMode} (h : AreaMode.ofOrdinal k = some a) : a.ordinal = k := by
  cases k with
  | zero => cases h; rfl
  | succ k =>
    obtain ⟨_, ⟨⟩⟩ := Option.dite_none_right_eq_some.mp h
    rfl

/-- R95: a present bit, an hour and a minute that make a time are the fields of that time. -/
theorem timeFields_of_timeOfFields {present hour minute : Nat} {t : Option TimeOfDay} (hp : present < 2)
    (h : timeOfFields present hour minute = some t) : timeFields t = (present, hour, minute) := by
  unfold timeOfFields at h
  split at h
  next habsent =>
    obtain ⟨⟨rfl, rfl⟩, h⟩ := Option.ite_none_right_eq_some.mp h
    cases h
    rw [habsent]
    rfl
  next hpresent =>
    obtain rfl : present = 1 := by omega
    obtain ⟨hhour, h⟩ := Option.dite_none_right_eq_some.mp h
    obtain ⟨hminute, h⟩ := Option.dite_none_right_eq_some.mp h
    cases h
    rfl

/-! ### Which members exist (R90, R91, R92, R94) -/

theorem fanMode_legal_iff (p : Params) (m : FanMode) : m.legal p = true ↔ m.ordinal ≤ 1 + p.raw.nFanSpeeds := by
  obtain ⟨hthree, -⟩ := (passes_counts_iff p.raw).mp (p.passes .counts)
  cases m <;> simp [FanMode.legal, FanMode.ordinal] <;> omega

theorem verticalVane_legal_iff (p : Params) (v : VerticalVane) : v.legal p = true ↔ v.ordinal ≤ p.raw.nVV := by
  cases v <;> simp [VerticalVane.legal, VerticalVane.ordinal]

theorem horizontalVane_legal_iff (p : Params) (v : HorizontalVane) : v.legal p = true ↔ v.ordinal ≤ p.raw.nHV := by
  cases v <;> simp [HorizontalVane.legal, HorizontalVane.ordinal]

theorem areaMode_legal_iff (p : Params) (a : AreaMode) : a.legal p = true ↔ a.ordinal ≤ p.raw.nArea := by
  cases a <;> simp [AreaMode.legal, AreaMode.ordinal]

theorem settings_wf_iff (p : Params) (st : Settings) : st.wf p = true ↔
    st.fan.legal p = true ∧ st.vvane.legal p = true ∧ st.hvane.legal p = true ∧ st.area.legal p = true := by
  simp [Settings.wf, and_assoc]

/-- Well-formed settings have codes within the counts. -/
theorem settings_wf_iff_ordinal_le (p : Params) (st : Settings) : st.wf p = true ↔
    st.fan.ordinal ≤ 1 + p.raw.nFanSpeeds ∧ st.vvane.ordinal ≤ p.raw.nVV ∧ st.hvane.ordinal ≤ p.raw.nHV ∧
      st.area.ordinal ≤ p.raw.nArea := by
  rw [settings_wf_iff, fanMode_legal_iff, verticalVane_legal_iff, horizontalVane_legal_iff, areaMode_legal_iff]

/-! ### When a check of the decoder gives a value -/

theorem bind_eq_ok_iff {α β : Type} {x : Except Illegal α} {f : α → Except Illegal β} {b : β} :
    (x >>= f) = .ok b ↔ ∃ a, x = .ok a ∧ f a = .ok b := by
  cases x <;> simp [bind, Except.bind]

theorem orIllegal_eq_ok_iff {α : Type} {why : Illegal} {o : Option α} {a : α} : orIllegal why o = .ok a ↔ o = some a := by
  cases o <;> simp [orIllegal]

theorem keepIf_eq_some_iff {α : Type} {test : α → Bool} {o : Option α} {a : α} :
    keepIf test o = some a ↔ o = some a ∧ test a = true := by
  cases o with
  | none => simp [keepIf]
  | some b =>
    simp only [keepIf, Option.ite_none_right_eq_some, Option.some.injEq]
    constructor
    · rintro ⟨h, rfl⟩; exact ⟨rfl, h⟩
    · rintro ⟨rfl, h⟩; exact ⟨h, rfl⟩

theorem reservedZeroFrom_eq_ok_iff {w : Word} {lo : Nat} {u : Unit} : reservedZeroFrom w lo = .ok u ↔ bits w 63 lo = 0 := by
  simp [reservedZeroFrom]

/-! ### The settings fields of a format S word -/

/-- The table of R82 from CLM on: each settings field of the word is the code of that setting. -/
structure CarriesSettings (w : Word) (st : Settings) : Prop where
  climate : st.climate.ordinal = bits w 6 5
  temperature : st.temperature.toNat = bits w 14 7
  fan : st.fan.ordinal = bits w 17 15
  vvane : st.vvane.ordinal = bits w 20 18
  hvane : st.hvane.ordinal = bits w 23 21
  isee : st.isee.ordinal = bits w 25 24
  area : st.area.ordinal = bits w 27 26
  start : timeFields st.start = (bits w 28 28, bits w 33 29, bits w 39 34)
  stop : timeFields st.stop = (bits w 40 40, bits w 45 41, bits w 51 46)

theorem carriesSettings_of_decodeSettings {p : Params} {w : Word} {st : Settings} (h : decodeSettings p w = .ok st) :
    CarriesSettings w st ∧ st.wf p = true := by
  simp only [decodeSettings, bind_eq_ok_iff, orIllegal_eq_ok_iff, keepIf_eq_some_iff, Option.some.injEq,
    Except.ok.injEq] at h
  obtain ⟨fan, ⟨rfl, fan_legal⟩, vvane, ⟨hvvane, vvane_legal⟩, hvane, ⟨hhvane, hvane_legal⟩, isee, hisee, area,
    ⟨harea, area_legal⟩, start, hstart, stop, hstop, rfl⟩ := h
  refine ⟨?_, (settings_wf_iff p _).mpr ⟨fan_legal, vvane_legal, hvane_legal, area_legal⟩⟩
  exact
    { climate := climateMode_ordinal_ofOrdinal (bits_lt w 6 5)
      temperature := Nat.mod_eq_of_lt (bits_lt w 14 7)
      fan := fanMode_ordinal_ofOrdinal (bits_lt w 17 15)
      vvane := verticalVane_ordinal_of_ofOrdinal hvvane
      hvane := horizontalVane_ordinal_of_ofOrdinal hhvane
      isee := iseeMode_ordinal_of_ofOrdinal hisee
      area := areaMode_ordinal_of_ofOrdinal harea
      start := timeFields_of_timeOfFields (bits_lt w 28 28) hstart
      stop := timeFields_of_timeOfFields (bits_lt w 40 40) hstop }

theorem decodeSettings_of_carriesSettings {p : Params} {w : Word} {st : Settings} (h : CarriesSettings w st)
    (hwf : st.wf p = true) : decodeSettings p w = .ok st := by
  obtain ⟨fan_legal, vvane_legal, hvane_legal, area_legal⟩ := (settings_wf_iff p st).mp hwf
  have hstart : timeOfFields (bits w 28 28) (bits w 33 29) (bits w 39 34) = some st.start := by
    simpa [h.start] using timeOfFields_timeFields st.start
  have hstop : timeOfFields (bits w 40 40) (bits w 45 41) (bits w 51 46) = some st.stop := by
    simpa [h.stop] using timeOfFields_timeFields st.stop
  rw [decodeSettings, hstart, hstop, ← h.climate, ← h.temperature, ← h.fan, ← h.vvane, ← h.hvane, ← h.isee, ← h.area]
  simp [keepIf, orIllegal, fan_legal, vvane_legal, hvane_legal, area_legal, bind, Except.bind]

/-- The settings decoder answers exactly the well-formed settings the word carries. -/
theorem decodeSettings_eq_ok_iff {p : Params} {w : Word} {st : Settings} :
    decodeSettings p w = .ok st ↔ CarriesSettings w st ∧ st.wf p = true :=
  ⟨carriesSettings_of_decodeSettings, fun ⟨h, hwf⟩ => decodeSettings_of_carriesSettings h hwf⟩

/-! ### The word of a command -/

/-- Format S (R82): the settings below bits 52 to 63, which are reserved (R87), and above the PWR bit (R96). -/
structure CarriesFormatS (w : Word) (pwr : PowerMode) (st : Settings) : Prop where
  reserved : bits w 63 52 = 0
  power : pwr.ordinal = bits w 4 4
  settings : CarriesSettings w st

/-- The formats N, S, T and I (R81 to R84): the fields above the opcode are the operands' codes and the reserved bits are 0. SEND
is a format S word with PWR 0 (R87). -/
def CarriesOperands (w : Word) : Instr → Prop
  | .nop => bits w 63 4 = 0
  | .build pwr st => CarriesFormatS w pwr st
  | .transmit rpt => bits w 63 12 = 0 ∧ rpt.toNat = bits w 11 4
  | .send st => CarriesFormatS w .powerOff st
  | .powerOff => bits w 63 4 = 0
  | .readFrame idx => bits w 63 9 = 0 ∧ idx.val = bits w 8 4
  | .readStatus => bits w 63 4 = 0
  | .clearStatus => bits w 63 4 = 0

/-- The word stands for the command: its opcode (R85) and its operands. -/
def Carries (w : Word) (i : Instr) : Prop := bits w 3 0 = i.opcode ∧ CarriesOperands w i

/-! ### DECODE answers the command a word carries -/

theorem decodeN_eq_ok_iff {i j : Instr} {w : Word} : decodeN i w = .ok j ↔ bits w 63 4 = 0 ∧ i = j := by
  simp [decodeN, bind_eq_ok_iff, reservedZeroFrom_eq_ok_iff]

theorem decodeBuild_eq_ok_iff {p : Params} {w : Word} {i : Instr} : decodeBuild p w = .ok i ↔
    ∃ pwr st, CarriesFormatS w pwr st ∧ st.wf p = true ∧ i = .build pwr st := by
  simp only [decodeBuild, bind_eq_ok_iff, reservedZeroFrom_eq_ok_iff, decodeSettings_eq_ok_iff, Except.ok.injEq]
  constructor
  · rintro ⟨-, hreserved, st, ⟨hst, hwf⟩, rfl⟩
    exact ⟨_, st, ⟨hreserved, powerMode_ordinal_ofOrdinal (bits_lt w 4 4), hst⟩, hwf, rfl⟩
  · rintro ⟨pwr, st, ⟨hreserved, hpwr, hst⟩, hwf, rfl⟩
    exact ⟨(), hreserved, st, ⟨hst, hwf⟩, by rw [← hpwr, powerMode_ofOrdinal_ordinal]⟩

theorem decodeSend_eq_ok_iff {p : Params} {w : Word} {i : Instr} : decodeSend p w = .ok i ↔
    ∃ st, CarriesFormatS w .powerOff st ∧ st.wf p = true ∧ i = .send st := by
  simp only [decodeSend, bind_eq_ok_iff, reservedZeroFrom_eq_ok_iff, decodeSettings_eq_ok_iff]
  constructor
  · rintro ⟨-, hreserved, st, ⟨hst, hwf⟩, h⟩
    split at h
    next hpwr => cases h; exact ⟨st, ⟨hreserved, hpwr.symm, hst⟩, hwf, rfl⟩
    next => cases h
  · rintro ⟨st, ⟨hreserved, hpwr, hst⟩, hwf, rfl⟩
    exact ⟨(), hreserved, st, ⟨hst, hwf⟩, if_pos hpwr.symm⟩

theorem decodeTransmit_eq_ok_iff {w : Word} {i : Instr} : decodeTransmit w = .ok i ↔
    ∃ rpt, CarriesOperands w (.transmit rpt) ∧ i = .transmit rpt := by
  simp only [decodeTransmit, bind_eq_ok_iff, reservedZeroFrom_eq_ok_iff, Except.ok.injEq, CarriesOperands]
  constructor
  · rintro ⟨-, hreserved, rfl⟩
    exact ⟨BitVec.ofNat 8 (bits w 11 4), ⟨hreserved, Nat.mod_eq_of_lt (bits_lt w 11 4)⟩, rfl⟩
  · rintro ⟨rpt, ⟨hreserved, hrpt⟩, rfl⟩
    exact ⟨(), hreserved, by rw [← hrpt, BitVec.ofNat_toNat, BitVec.setWidth_eq]⟩

theorem decodeReadFrame_eq_ok_iff {w : Word} {i : Instr} : decodeReadFrame w = .ok i ↔
    ∃ idx, CarriesOperands w (.readFrame idx) ∧ i = .readFrame idx := by
  simp only [decodeReadFrame, bind_eq_ok_iff, reservedZeroFrom_eq_ok_iff, CarriesOperands]
  constructor
  · rintro ⟨-, hreserved, h⟩
    split at h
    next hidx => cases h; exact ⟨⟨_, hidx⟩, ⟨hreserved, rfl⟩, rfl⟩
    next => cases h
  · rintro ⟨idx, ⟨hreserved, hidx⟩, rfl⟩
    exact ⟨(), hreserved, by simp [← hidx]⟩

theorem carries_of_decode {p : Params} {w : Word} {i : Instr} (h : decode p w = .ok i) : Carries w i ∧ i.wf p = true := by
  unfold decode at h
  split at h
  next hop => obtain ⟨hi, rfl⟩ := decodeN_eq_ok_iff.mp h; exact ⟨⟨hop, hi⟩, rfl⟩
  next hop => obtain ⟨pwr, st, hi, hwf, rfl⟩ := decodeBuild_eq_ok_iff.mp h; exact ⟨⟨hop, hi⟩, hwf⟩
  next hop => obtain ⟨rpt, hi, rfl⟩ := decodeTransmit_eq_ok_iff.mp h; exact ⟨⟨hop, hi⟩, rfl⟩
  next hop => obtain ⟨st, hi, hwf, rfl⟩ := decodeSend_eq_ok_iff.mp h; exact ⟨⟨hop, hi⟩, hwf⟩
  next hop => obtain ⟨hi, rfl⟩ := decodeN_eq_ok_iff.mp h; exact ⟨⟨hop, hi⟩, rfl⟩
  next hop => obtain ⟨idx, hi, rfl⟩ := decodeReadFrame_eq_ok_iff.mp h; exact ⟨⟨hop, hi⟩, rfl⟩
  next hop => obtain ⟨hi, rfl⟩ := decodeN_eq_ok_iff.mp h; exact ⟨⟨hop, hi⟩, rfl⟩
  next hop => obtain ⟨hi, rfl⟩ := decodeN_eq_ok_iff.mp h; exact ⟨⟨hop, hi⟩, rfl⟩
  next => cases h

theorem decode_of_carries {p : Params} {w : Word} {i : Instr} (h : Carries w i) (hwf : i.wf p = true) :
    decode p w = .ok i := by
  obtain ⟨hop, hi⟩ := h
  rw [decode, hop]
  cases i with
  | nop | powerOff | readStatus | clearStatus => exact decodeN_eq_ok_iff.mpr ⟨hi, rfl⟩
  | build pwr st => exact decodeBuild_eq_ok_iff.mpr ⟨pwr, st, hi, hwf, rfl⟩
  | transmit rpt => exact decodeTransmit_eq_ok_iff.mpr ⟨rpt, hi, rfl⟩
  | send st => exact decodeSend_eq_ok_iff.mpr ⟨st, hi, hwf, rfl⟩
  | readFrame idx => exact decodeReadFrame_eq_ok_iff.mpr ⟨idx, hi, rfl⟩

/-! ### ENCODE gives the word that carries a command -/

/-- A word that carries settings is the sum of its fields, each at its weight. -/
theorem toNat_of_carriesSettings {w : Word} {st : Settings} (h : CarriesSettings w st) (hreserved : bits w 63 52 = 0) :
    w.toNat = bits w 3 0 + (bits w 4 4 * 2 ^ 4 + encodeSettings st) := by
  have hw := w.isLt
  obtain ⟨climate, temperature, fan, vvane, hvane, isee, area, start, stop⟩ := h
  simp only [encodeSettings, climate, temperature, fan, vvane, hvane, isee, area, start, stop]
  simp only [bits] at hreserved ⊢
  omega

/-- Each settings field of the sum is read back: it is within its width, and so is everything below it. -/
theorem carriesSettings_of_toNat {w : Word} {st : Settings} {low : Nat} (hlow : low < 2 ^ 5)
    (hw : w.toNat = low + encodeSettings st) : CarriesSettings w st := by
  have hclimate := climateMode_ordinal_lt st.climate
  have htemperature := st.temperature.isLt
  have hfan := fanMode_ordinal_lt st.fan
  have hvvane := verticalVane_ordinal_lt st.vvane
  have hhvane := horizontalVane_ordinal_lt st.hvane
  have hisee := iseeMode_ordinal_lt st.isee
  have harea := areaMode_ordinal_lt st.area
  obtain ⟨hpresent, hhour, hminute⟩ := timeFields_lt st.start
  obtain ⟨hpresent', hhour', hminute'⟩ := timeFields_lt st.stop
  refine ⟨?_, ?_, ?_, ?_, ?_, ?_, ?_, Prod.ext ?_ (Prod.ext ?_ ?_), Prod.ext ?_ (Prod.ext ?_ ?_)⟩
  all_goals
    simp only [bits, hw, encodeSettings]
    omega

theorem carriesFormatS_iff_toNat {w : Word} {op : Nat} (hop : op < 16) (pwr : PowerMode) (st : Settings) :
    (bits w 3 0 = op ∧ CarriesFormatS w pwr st) ↔ w.toNat = op + (pwr.ordinal * 2 ^ 4 + encodeSettings st) := by
  constructor
  · rintro ⟨rfl, hreserved, hpwr, hst⟩
    rw [hpwr]
    exact toNat_of_carriesSettings hst hreserved
  · intro hw
    have hpwr := powerMode_ordinal_lt pwr
    have hst := encodeSettings_lt st
    have hmod := encodeSettings_mod st
    refine ⟨?_, ?_, ?_, carriesSettings_of_toNat (low := op + pwr.ordinal * 2 ^ 4) (by omega) (by omega)⟩
    all_goals
      simp only [bits, hw]
      omega

/-- A word carries a command exactly when it is the sum of the opcode and the operand fields. -/
theorem carries_iff_toNat (w : Word) (i : Instr) : Carries w i ↔ w.toNat = i.opcode + i.operandBits := by
  have hw := w.isLt
  cases i with
  | nop | powerOff | readStatus | clearStatus =>
    simp only [Carries, CarriesOperands, Instr.opcode, Instr.operandBits, bits]
    omega
  | build pwr st => exact carriesFormatS_iff_toNat (op := 1) (by decide) pwr st
  | transmit rpt =>
    have hrpt := rpt.isLt
    simp only [Carries, CarriesOperands, Instr.opcode, Instr.operandBits, bits]
    omega
  | send st =>
    have h := carriesFormatS_iff_toNat (w := w) (op := 3) (by decide) .powerOff st
    rwa [PowerMode.ordinal, Nat.zero_mul, Nat.zero_add] at h
  | readFrame idx =>
    have hidx := idx.isLt
    simp only [Carries, CarriesOperands, Instr.opcode, Instr.operandBits, bits]
    omega

theorem opcode_add_operandBits_lt (i : Instr) : i.opcode + i.operandBits < 2 ^ 64 := by
  cases i with
  | nop | powerOff | readStatus | clearStatus => decide
  | build pwr st =>
    have hpwr := powerMode_ordinal_lt pwr
    have hst := encodeSettings_lt st
    simp only [Instr.opcode, Instr.operandBits]
    omega
  | transmit rpt => simp only [Instr.opcode, Instr.operandBits]; omega
  | send st =>
    have hst := encodeSettings_lt st
    simp only [Instr.opcode, Instr.operandBits]
    omega
  | readFrame idx => simp only [Instr.opcode, Instr.operandBits]; omega

/-- The encoding is the one word that carries the command. -/
theorem carries_iff_encode (w : Word) (i : Instr) : Carries w i ↔ encode i = w := by
  rw [carries_iff_toNat, ← BitVec.toNat_inj, encode, BitVec.toNat_ofNat, Nat.mod_eq_of_lt (opcode_add_operandBits_lt i),
    eq_comm]

/-! ### The statements -/

/-- Settles O2: the encoding carries the command, and what a word carries is what it decodes to. -/
theorem encodedCommandsDecodeBack : Obligations.EncodedCommandsDecodeBack := by
  intro p i hwf
  exact decode_of_carries ((carries_iff_encode _ i).mpr rfl) hwf

/-- Settles O3: the word carries the command it decodes to, and only the encoding does. -/
theorem decodedWordsAreTheEncoding : Obligations.DecodedWordsAreTheEncoding := by
  intro p w i h
  obtain ⟨hcarries, hwf⟩ := carries_of_decode h
  exact ⟨(carries_iff_encode w i).mp hcarries, hwf⟩

/-- Settles O57: the assembler encodes the line's command only if it is well-formed. -/
theorem assemblerEmitsLegalWords : Obligations.AssemblerEmitsLegalWords := by
  intro p line w h
  obtain ⟨i, hline, h⟩ := Option.bind_eq_some_iff.mp h
  obtain ⟨hwf, h⟩ := Option.ite_none_right_eq_some.mp h
  cases h
  have hdecode := encodedCommandsDecodeBack p i hwf
  exact ⟨i, hline, hdecode, (decode_ok_iff p (encode i)).mp ⟨i, hdecode⟩⟩

/-- A BUILD or SEND word is a format S word; PWR is the operand of BUILD and 0 in SEND. -/
theorem carriesFormatS_of_decode {p : Params} {w : Word} {pwr : PowerMode} {st : Settings}
    (h : decode p w = .ok (.build pwr st) ∨ (decode p w = .ok (.send st) ∧ pwr = .powerOff)) :
    CarriesFormatS w pwr st ∧ st.wf p = true ∧ bits w 3 0 = if decode p w = .ok (.build pwr st) then 1 else 3 := by
  rcases h with h | ⟨h, rfl⟩
  · obtain ⟨⟨hop, hw⟩, hwf⟩ := carries_of_decode h
    exact ⟨hw, hwf, by rw [if_pos h]; exact hop⟩
  · obtain ⟨⟨hop, hw⟩, hwf⟩ := carries_of_decode h
    exact ⟨hw, hwf, by rw [h]; exact hop⟩

/-- The settings of a BUILD or SEND word, when the power mode does not matter. -/
theorem carriesSettings_of_decode {p : Params} {w : Word} {st : Settings}
    (h : (∃ pwr, decode p w = .ok (.build pwr st)) ∨ decode p w = .ok (.send st)) :
    CarriesSettings w st ∧ st.wf p = true := by
  rcases h with ⟨pwr, h⟩ | h
  · obtain ⟨hw, hwf, -⟩ := carriesFormatS_of_decode (.inl h)
    exact ⟨hw.settings, hwf⟩
  · obtain ⟨hw, hwf, -⟩ := carriesFormatS_of_decode (.inr ⟨h, rfl⟩)
    exact ⟨hw.settings, hwf⟩

/-- Settles O4: the table is what it means for a format S word to carry the operands. -/
theorem settingsFieldsAreReadAtTheirPlaces : Obligations.SettingsFieldsAreReadAtTheirPlaces := by
  intro p w pwr st h
  obtain ⟨⟨hreserved, hpwr, hst⟩, -, hop⟩ := carriesFormatS_of_decode h
  exact ⟨hpwr, hst.climate, hst.temperature, hst.fan, hst.vvane, hst.hvane, hst.isee, hst.area, hst.start, hst.stop,
    hreserved, hop⟩

/-- Settles O6: the tables are what it means for a word to carry a count or an index. -/
theorem countAndIndexFieldsAreRead : Obligations.CountAndIndexFieldsAreRead := by
  intro p w
  constructor
  · intro rpt h
    obtain ⟨⟨hop, hreserved, hrpt⟩, -⟩ := carries_of_decode h
    exact ⟨hop, hrpt, hreserved⟩
  · intro idx h
    obtain ⟨⟨hop, hreserved, hidx⟩, -⟩ := carries_of_decode h
    exact ⟨hop, hidx, hreserved⟩

/-! ### A code names one member (R88 to R96) -/

theorem powerMode_ordinal_injective : Function.Injective PowerMode.ordinal :=
  Function.LeftInverse.injective powerMode_ofOrdinal_ordinal

theorem climateMode_ordinal_injective : Function.Injective ClimateMode.ordinal :=
  Function.LeftInverse.injective climateMode_ofOrdinal_ordinal

theorem fanMode_ordinal_injective : Function.Injective FanMode.ordinal :=
  Function.LeftInverse.injective fanMode_ofOrdinal_ordinal

/-- An encoding that a partial decoder reads back is injective. -/
theorem injective_of_read_back {α : Type} {code : α → Nat} {read : Nat → Option α} (h : ∀ a, read (code a) = some a) :
    Function.Injective code := by
  intro a b hab
  exact Option.some.inj (by rw [← h a, ← h b, hab])

theorem verticalVane_ordinal_injective : Function.Injective VerticalVane.ordinal :=
  injective_of_read_back verticalVane_ofOrdinal_ordinal

theorem horizontalVane_ordinal_injective : Function.Injective HorizontalVane.ordinal :=
  injective_of_read_back horizontalVane_ofOrdinal_ordinal

theorem iseeMode_ordinal_injective : Function.Injective ISeeMode.ordinal :=
  injective_of_read_back iseeMode_ofOrdinal_ordinal

theorem areaMode_ordinal_injective : Function.Injective AreaMode.ordinal :=
  injective_of_read_back areaMode_ofOrdinal_ordinal

/-- Settles O5: the codes read are the ordinals of the two modes, an ordinal names one mode, and no ISEE ordinal is 3. -/
theorem climateAndSensingCodesNameTheirModes : Obligations.ClimateAndSensingCodesNameTheirModes := by
  intro p w st h
  obtain ⟨hst, -⟩ := carriesSettings_of_decode h
  rw [← hst.climate, ← hst.isee]
  have hclimate (m : ClimateMode) : st.climate.ordinal = m.ordinal → st.climate = m := @climateMode_ordinal_injective _ m
  have hisee (m : ISeeMode) : st.isee.ordinal = m.ordinal → st.isee = m := @iseeMode_ordinal_injective _ m
  exact ⟨hclimate .auto, hclimate .hot, hclimate .cold, hclimate .dry, hisee .notApplicable, hisee .off, hisee .on,
    (iseeMode_ordinal_lt st.isee).ne⟩

/-- R96: PWR is the operand of BUILD, and 0 in SEND. -/
theorem power_of_decode {p : Params} {w : Word} {st : Settings} :
    (∀ pwr, decode p w = .ok (.build pwr st) → pwr.ordinal = bits w 4 4) ∧
      (decode p w = .ok (.send st) → bits w 4 4 = 0) := by
  constructor
  · intro pwr h
    obtain ⟨hw, -⟩ := carriesFormatS_of_decode (.inl h)
    exact hw.power
  · intro h
    obtain ⟨hw, -⟩ := carriesFormatS_of_decode (.inr ⟨h, rfl⟩)
    exact hw.power.symm

/-- Settles O58: the codes read are the ordinals of the members, an ordinal names one member, and that of a well-formed member is
within its count. -/
theorem fanVaneAreaAndPowerCodesNameTheirMembers : Obligations.FanVaneAreaAndPowerCodesNameTheirMembers := by
  intro p w st h
  obtain ⟨hst, hwf⟩ := carriesSettings_of_decode h
  obtain ⟨hfan_le, hvvane_le, hhvane_le, harea_le⟩ := (settings_wf_iff_ordinal_le p st).mp hwf
  obtain ⟨hbuild, hsend⟩ := power_of_decode (p := p) (w := w) (st := st)
  have hfan (m : FanMode) : st.fan.ordinal = m.ordinal → st.fan = m := @fanMode_ordinal_injective _ m
  have hvvane (v : VerticalVane) : st.vvane.ordinal = v.ordinal → st.vvane = v := @verticalVane_ordinal_injective _ v
  have hhvane (v : HorizontalVane) : st.hvane.ordinal = v.ordinal → st.hvane = v := @horizontalVane_ordinal_injective _ v
  have harea (a : AreaMode) : st.area.ordinal = a.ordinal → st.area = a := @areaMode_ordinal_injective _ a
  have hpwr (pwr : PowerMode) (hd : decode p w = .ok (.build pwr st)) :
      (bits w 4 4 = 0 → pwr = .powerOff) ∧ (bits w 4 4 = 1 → pwr = .powerOn) := by
    rw [← hbuild pwr hd]
    exact ⟨@powerMode_ordinal_injective pwr .powerOff, @powerMode_ordinal_injective pwr .powerOn⟩
  rw [← hst.fan, ← hst.vvane, ← hst.hvane, ← hst.area]
  exact ⟨hfan .auto, hfan .silent, hfan .speed1, hfan .speed2, hfan .speed3, hfan .speed4, hfan .speed5, hfan .speed6, hfan_le,
    hvvane .auto, fun k => hvvane (.pos k), hvvane_le, hhvane .notApplicable, fun k => hhvane (.pos k), hhvane_le,
    harea .notApplicable, fun k => harea (.area k), harea_le, hpwr, hsend⟩

/-- Settles O1: the legal words are encodings of commands that are well-formed under every parameter record, and each illegal
word fails a check that reads no parameter. -/
theorem tabledWordsDecode : Obligations.TabledWordsDecode := by
  intro p
  have legal {w : Word} {i : Instr} (hw : encode i = w) (hwf : i.wf p = true) : decode p w = .ok i :=
    decode_of_carries ((carries_iff_encode w i).mpr hw) hwf
  exact ⟨legal rfl rfl, legal rfl rfl, legal rfl rfl, legal rfl rfl, legal rfl rfl, legal rfl rfl, legal rfl rfl,
    legal rfl rfl, legal rfl rfl, legal rfl rfl, legal rfl rfl, legal rfl rfl, rfl, rfl, rfl, rfl, rfl, rfl, rfl, rfl⟩

end Sys2Proof.Proofs
end

section
/-! PROOFS. The time bytes of a frame (R109, R138, R139): no bucket reaches 256, so each byte holds its bucket untruncated. -/

namespace Sys2Proof.Proofs

open Sys2Proof.Machine Sys2Proof.Laws

theorem bucket_le {hour minute a b : Nat} (hhour : hour ≤ a) (hminute : minute ≤ b) : bucket hour minute ≤ a * (b / 10) :=
  Nat.mul_le_mul hhour (Nat.div_le_div_right hminute)

/-- The bucket of a legal time. -/
theorem bucket_time_le (t : TimeOfDay) : bucket t.hour.val t.minute.val ≤ 115 :=
  bucket_le (a := 23) (b := 59) (by omega) (by omega)

/-- The bucket of the raw ports, which hold any 5-bit hour and 6-bit minute. -/
theorem bucket_ports_le (h : BitVec 5) (m : BitVec 6) : bucket h.toNat m.toNat ≤ 186 :=
  bucket_le (a := 31) (b := 63) (by omega) (by omega)

theorem encodeFrame_clock (p : Params) (pwr : PowerMode) (st : Settings) (h : BitVec 5) (m : BitVec 6) :
    (encodeFrame p pwr st h m)[p.fieldPos .clock].toNat = bucket h.toNat m.toNat := by
  have hle := bucket_ports_le h m
  rw [encodeFrame_field, fieldByte, BitVec.toNat_ofNat]
  omega

theorem optionalBucket_le (t : Option TimeOfDay) : optionalBucket t ≤ 115 := by
  cases t with
  | none => exact Nat.zero_le _
  | some t => exact bucket_time_le t

theorem encodeFrame_endTime (p : Params) (pwr : PowerMode) (st : Settings) (h : BitVec 5) (m : BitVec 6) :
    (encodeFrame p pwr st h m)[p.fieldPos .endTime].toNat = optionalBucket st.stop := by
  have hle := optionalBucket_le st.stop
  rw [encodeFrame_field, fieldByte, BitVec.toNat_ofNat]
  omega

theorem encodeFrame_startTime (p : Params) (pwr : PowerMode) (st : Settings) (h : BitVec 5) (m : BitVec 6) :
    (encodeFrame p pwr st h m)[p.fieldPos .startTime].toNat = optionalBucket st.start := by
  have hle := optionalBucket_le st.start
  rw [encodeFrame_field, fieldByte, BitVec.toNat_ofNat]
  omega

/-- Settles O26: each bucket is below 256, so the byte holds it untruncated. -/
theorem timeBytesAreBuckets : Obligations.TimeBytesAreBuckets := by
  intro p pwr st h m
  simp only [encodeFrame_clock, encodeFrame_endTime, encodeFrame_startTime]
  refine ⟨rfl, bucket_ports_le h m, ?_, ?_, ?_, ?_⟩
  · intro hstop
    rw [hstop, optionalBucket]
  · intro t hstop
    rw [hstop]
    exact ⟨rfl, bucket_time_le t⟩
  · intro hstart
    rw [hstart, optionalBucket]
  · intro t hstart
    rw [hstart]
    exact ⟨rfl, bucket_time_le t⟩

end Sys2Proof.Proofs
end

section
/-! PROOFS. The other bytes of a frame and the commands that show them: what each position of ENCODE holds (R132 to R137, R140,
R141), the frame each builder commits, and the byte READ_FRAME answers. -/

namespace Sys2Proof.Proofs

open Sys2Proof.Machine Sys2Proof.Laws

/-! ### The builders and the Power byte (R131, R133) -/

/-- Settles O11: the sequencer is idle, so the check passes and BUILD is its commit and its response. -/
theorem buildCommitsTheEncodedFrame : Obligations.BuildCommitsTheEncodedFrame := by
  intro pwr st s hp
  exact exec_build_of_idle hp pwr st

theorem exec_send_of_idle {s : State} (hp : s.phase = .idle) (st : Settings) :
    exec (.send st) s = .next (respond 0 (buildAndSend Config.params .powerOn st s)) := by
  rw [exec, execSend, whenIdle_of_idle hp]

theorem exec_powerOff_of_idle {s : State} (hp : s.phase = .idle) :
    exec .powerOff s = .next (respond 0 (buildAndSend Config.params .powerOff Config.params.raw.powerOffSettings s)) := by
  rw [exec, execPowerOff, whenIdle_of_idle hp]

theorem encodeFrame_power (p : Params) (pwr : PowerMode) (st : Settings) (h : BitVec 5) (m : BitVec 6) :
    (encodeFrame p pwr st h m)[p.fieldPos .power] = p.raw.powerCode pwr :=
  encodeFrame_field p pwr st h m .power

/-- Settles O23: each builder leaves ENCODE of its own power mode in FRAME, and START writes no frame byte. -/
theorem powerByteFollowsTheCommand : Obligations.PowerByteFollowsTheCommand := by
  intro pwr st s hp
  refine ⟨⟨_, exec_build_of_idle hp pwr st, ?_⟩, ⟨_, exec_send_of_idle hp st, ?_⟩, ⟨_, exec_powerOff_of_idle hp, ?_⟩⟩
  · rw [respond_frame, buildFrame_frame, encodeFrame_power]
  · rw [respond_frame, buildAndSend_frame, encodeFrame_power]
  · rw [respond_frame, buildAndSend_frame, encodeFrame_power]

/-! ### The bytes that OR two codes (R134, R136, R137, R140) -/

/-- Settles O24: a field position holds the byte its step of ENCODE wrote, whatever the other steps wrote. -/
theorem codeBytesAreOred : Obligations.CodeBytesAreOred := by
  intro p pwr st h m
  exact ⟨encodeFrame_field p pwr st h m .climateAndISee, encodeFrame_field p pwr st h m .climateAndHorizontalVanne,
    encodeFrame_field p pwr st h m .fanAndVerticalVanne⟩

/-- The schedule mode follows from which times are present (R108). -/
theorem scheduleMode_eq_ite (start stop : Option TimeOfDay) : scheduleMode start stop =
    if start.isSome = true then (if stop.isSome = true then .both else .start)
    else (if stop.isSome = true then .stop else .none) := by
  cases start <;> cases stop <;> rfl

/-- `wf_zero_codes`: both codes of the byte are 0 (R9), so their OR is. -/
theorem scheduleAndAreaCodes_or_eq_zero (p : Params) (t : ScheduleMode) (a : AreaMode) :
    p.raw.tcCode t ||| p.raw.areaCode a = 0 := by
  obtain ⟨harea, htc⟩ := (passes_zeroCodes_iff p.raw).mp (p.passes .zeroCodes)
  rw [htc, harea]
  rfl

/-- Settles O27: R9 admits only zero codes, so the byte is 0 whatever the schedule and the area. -/
theorem scheduleAndAreaByteIsZero : Obligations.ScheduleAndAreaByteIsZero := by
  intro p pwr st h m
  have hbyte := encodeFrame_field p pwr st h m .timeControlAndArea
  exact ⟨scheduleMode_eq_ite st.start st.stop, hbyte, hbyte.trans (scheduleAndAreaCodes_or_eq_zero p _ _)⟩

/-! ### The Temperature byte (R110, R135) -/

/-- The limits of R110 written out. -/
theorem temperatureOffset_eq (temp : BitVec 8) : temperatureOffset temp = min (max temp.toInt 16) 31 - 16 := rfl

/-- The byte holds the offset itself, which is never negative and far below 256. -/
theorem encodeFrame_temperature (p : Params) (pwr : PowerMode) (st : Settings) (h : BitVec 5) (m : BitVec 6) :
    ((encodeFrame p pwr st h m)[p.fieldPos .temperature].toNat : Int) = temperatureOffset st.temperature := by
  obtain ⟨hlow, hhigh⟩ := temperatureOffset_bounds st.temperature
  rw [encodeFrame_field, fieldByte, BitVec.toNat_ofInt]
  omega

/-- Settles O25: the byte is the clamped offset, read off below, above and between the two limits. -/
theorem temperatureByteIsClamped : Obligations.TemperatureByteIsClamped := by
  intro p pwr st h m b
  have hbyte : (b : Int) = min (max st.temperature.toInt 16) 31 - 16 :=
    (encodeFrame_temperature p pwr st h m).trans (temperatureOffset_eq st.temperature)
  refine ⟨?below, ?above, ?between, ?range⟩
  case below =>
    intro hle
    omega
  case above =>
    intro hge
    omega
  case between =>
    intro hlow hhigh
    omega
  case range => exact (frameInv_encodeFrame p pwr st h m).temperature_range

/-! ### The positions that are no field (R132, R141) -/

/-- Settles O28: writing the checksum leaves the bytes it sums as they are, so it is the sum over the finished frame. -/
theorem checksumByteSumsTheOthers : Obligations.ChecksumByteSumsTheOthers := by
  intro p pwr st h m f
  rw [← checksumSum_eq_sum]
  exact encodeFrame_checksum p pwr st h m

/-- Settles O29: neither the field steps nor the checksum step writes such a position. -/
theorem templateBytesAreKept : Obligations.TemplateBytesAreKept := by
  intro p pwr st h m i hi hfield
  exact encodeFrame_template p pwr st h m hi hfield

/-! ### READ_FRAME (R147) -/

theorem exec_readFrame_of_invalid {s : State} (hv : s.frameValid = false) (idx : FramePos) :
    exec (.readFrame idx) s = .next (reject .noFrame s) := by
  rw [exec, execReadFrame, whenFrame_of_invalid hv]

/-- Settles O12: the frame check decides between the response of the byte and the rejection; no phase is asked. -/
theorem readFrameAnswersTheByte : Obligations.ReadFrameAnswersTheByte := by
  intro idx s
  exact ⟨fun hv => exec_readFrame_of_valid hv idx, fun hv => exec_readFrame_of_invalid hv idx⟩

end Sys2Proof.Proofs
end

section
/-! PROOFS. The sequencer: what a SEQ turn does with the segment on offer, phase by phase, and that a whole transmission emits
its stream, or the part of it before a failure. Then the stream itself: its length, its alternation and its duration. -/

namespace Sys2Proof.Proofs

open Sys2Proof.Machine Sys2Proof.Laws

/-! ### A SEQ turn with a segment on offer (R171) -/

/-- Taking a turn off the line leaves the segment on offer. -/
@[simp] theorem currentSegment_takeTurn (p : Params) (turn : Turn) (rest : List Turn) (s : State) :
    currentSegment p (takeTurn turn rest s) = currentSegment p s := by
  cases turn <;> rfl

/-- TX's answer decides what becomes of the segment on offer. -/
theorem step_seq_of_segment {s : State} {answer : TxAnswer} {rest : List Turn} {sg : Segment}
    (hturns : s.turns = .seq answer :: rest) (hsg : currentSegment Config.params s = .ok (some sg)) :
    step s = .next (answerSegment sg answer (takeTurn (.seq answer) rest s)) := by
  rw [step_of_turn hturns, runTurn, seqTurn, currentSegment_takeTurn, hsg]

/-- An accepted segment goes to OUT, and the sequencer advances. -/
theorem step_seq_ok_of_segment {s : State} {rest : List Turn} {sg : Segment} (hturns : s.turns = .seq .ok :: rest)
    (hsg : currentSegment Config.params s = .ok (some sg)) :
    step s = .next (advance { s with turns := rest, resp := none, out := s.out ++ [.seg sg] }) :=
  step_seq_of_segment hturns hsg

/-- Settles O36: the failed segment is the one on offer, and an idle sequencer offers none. -/
theorem transmitterFailureAborts : Obligations.TransmitterFailureAborts := by
  intro s rest code sg hturns hsg
  exact ⟨step_seq_of_segment hturns hsg, currentSegment_idle _ rfl⟩

/-- Settles O37: an idle sequencer offers no segment, so only the turn is taken. -/
theorem idleSequencerTurnPasses : Obligations.IdleSequencerTurnPasses := by
  intro s a rest hturns hp
  rw [step_of_turn hturns, runTurn, seqTurn, currentSegment_takeTurn, currentSegment_idle _ hp]
  rfl

/-! ### The segment and the move of each phase (R172 to R177) -/

/-- Settles O33: each of the four phases has one segment and one successor. -/
theorem markAndHeaderPhasesMoveOn : Obligations.MarkAndHeaderPhasesMoveOn := by
  intro s rest hturns
  refine ⟨fun hp => ?_, fun hp => ?_, fun hp => ?_, fun hp => ?_⟩
  all_goals
    rw [step_seq_ok_of_segment hturns (by rw [currentSegment, hp])]
    simp only [advance, hp]
    rfl

theorem advanceBit_of_bit_lt {s : State} (hbit : s.bitIdx.val < 7) :
    advanceBit s = { s with bitIdx := s.bitIdx + 1, phase := .bitMark } :=
  if_pos hbit

theorem advanceBit_of_byte_lt {s : State} (hbit : s.bitIdx.val = 7) (hbyte : s.byteIdx.val < 17) :
    advanceBit s = { s with byteIdx := s.byteIdx + 1, bitIdx := 0, phase := .bitMark } := by
  simp [advanceBit, hbit, hbyte]

theorem advanceBit_of_last {s : State} (hbit : s.bitIdx.val = 7) (hbyte : s.byteIdx.val = 17) :
    advanceBit s = { s with phase := .ftrMark } := by
  simp [advanceBit, hbit, hbyte]

/-- Settles O34: the space of the addressed bit, then the three cases of moving on to the next bit. -/
theorem bitSpaceEmitsTheAddressedBit : Obligations.BitSpaceEmitsTheAddressedBit := by
  intro s rest hturns hp hv durUs u
  have hstep : step s = .next (advanceBit u) := by
    rw [step_seq_ok_of_segment hturns (currentSegment_bitSpace _ hp hv)]
    simp only [advance, hp]
    rfl
  rw [hstep]
  refine ⟨fun hbit => ⟨s.bitIdx + 1, by omega, ?_⟩, fun hbit hbyte => ⟨s.byteIdx + 1, by omega, ?_⟩,
    fun hbit hbyte => ?_⟩
  · exact congrArg _ (advanceBit_of_bit_lt (s := u) hbit)
  · exact congrArg _ (advanceBit_of_byte_lt (s := u) hbit hbyte)
  · exact congrArg _ (advanceBit_of_last (s := u) hbit hbyte)

/-- Settles O35: the incremented count decides between the next repetition and the idle sequencer. -/
theorem footerSpaceEndsTheRepetition : Obligations.FooterSpaceEndsTheRepetition := by
  intro s rest hturns hp u
  have hstep : step s = .next (advanceRepetition
      { s with turns := rest, resp := none, out := s.out ++ [.seg (spaceSegment Config.params.timing.rptSpace)] }) := by
    rw [step_seq_ok_of_segment hturns (by rw [currentSegment, hp])]
    simp only [advance, hp]
  rw [hstep]
  refine ⟨fun hmore => ?_, fun hlast => ?_⟩
  · rw [advanceRepetition, if_pos hmore]
    rfl
  · rw [advanceRepetition, if_neg hlast]
    rfl

/-! ### The start and the carrier (R170, R179) -/

theorem exec_transmit_of_idle {s : State} (hp : s.phase = .idle) (hv : s.frameValid = true) (rpt : BitVec 8) :
    exec (.transmit rpt) s = .next (respond 0 (startTransmission rpt s)) := by
  rw [exec, execTransmit, whenIdle_of_idle hp, whenFrame_of_valid hv]

/-- Settles O13: both checks pass, and START does what its count says. -/
theorem transmitStartsTheSequencer : Obligations.TransmitStartsTheSequencer := by
  intro rpt s hp hv
  rw [exec_transmit_of_idle hp hv]
  refine ⟨fun hzero => ?_, fun hne => ?_⟩
  · rw [hzero, startTransmission_zero]
    rfl
  · rw [startTransmission_of_ne hne]
    rfl

/-- Whatever the phase, the segment on offer was made as a mark or as a space. -/
theorem currentSegment_mark_or_space {p : Params} {s : State} {sg : Segment} (h : currentSegment p s = .ok (some sg)) :
    ∃ durUs, sg = markSegment durUs ∨ sg = spaceSegment durUs := by
  cases hp : s.phase with
  | idle => simp [currentSegment_idle p hp] at h
  | hdrMark | bitMark | ftrMark =>
    simp only [currentSegment, hp] at h
    cases h
    exact ⟨_, .inl rfl⟩
  | hdrSpace | ftrSpace =>
    simp only [currentSegment, hp] at h
    cases h
    exact ⟨_, .inr rfl⟩
  | bitSpace =>
    simp only [currentSegment, hp] at h
    split at h
    · cases h
      exact ⟨_, .inr rfl⟩
    · cases h

/-- A segment that is new in OUT was the one on offer. -/
theorem currentSegment_of_new_segment {s t : State} {sg : Segment} (hstep : step s = .next t) (hnew : .seg sg ∈ t.out)
    (hold : .seg sg ∉ s.out) : currentSegment Config.params s = .ok (some sg) := by
  rcases step_cases hstep with ⟨-, rfl⟩ | ⟨w, hour, minute, rest, e, -, -, rfl⟩ |
    ⟨w, hour, minute, rest, i, -, -, he⟩ | ⟨a, rest, -, hs⟩ | ⟨rest, -, rfl⟩
  · exact absurd hnew hold
  · exact absurd (by simpa using hnew) hold
  · exact absurd (by simpa [exec_out he] using hnew) hold
  · rcases seqTurn_cases hs with ⟨-, rfl⟩ | ⟨-, offered, hoffered, rfl⟩
    · exact absurd (by simpa using hnew) hold
    · cases a with
      | ok =>
        have hsame : sg = offered := by simpa [hold] using hnew
        rwa [hsame, ← currentSegment_takeTurn]
      | fail code => exact absurd (by simpa using hnew) hold
  · exact absurd (by simpa using hnew) hold

/-- Settles O41: the segment on offer is a mark or a space as R14 makes them, and OUT gets no other. -/
theorem marksCarryTheCarrier : Obligations.MarksCarryTheCarrier := by
  refine ⟨fun s sg hsg => ?_, fun s t sg hstep hnew hold => ?_⟩
  · obtain ⟨durUs, rfl | rfl⟩ := currentSegment_mark_or_space hsg <;> rfl
  · obtain ⟨durUs, rfl | rfl⟩ := currentSegment_mark_or_space (currentSegment_of_new_segment hstep hnew hold) <;> rfl

/-! ### A transmission from its start (R180) -/

/-- The position counters stand at the last bit of the frame while the footer is sent: `Inv.footer_position` alone, since the
start of a transmission says nothing of R46. -/
def FooterPosition (s : State) : Prop := s.phase = .ftrMark ∨ s.phase = .ftrSpace → s.byteIdx = 17 ∧ s.bitIdx = 7

/-- The footer is entered after the last bit of the last byte only (R175). -/
theorem footerPosition_advance {s : State} (h : FooterPosition s) : FooterPosition (advance s) := by
  cases hp : s.phase with
  | idle => simpa only [advance, hp] using h
  | hdrMark | hdrSpace | bitMark => simp [FooterPosition, advance, hp]
  | bitSpace =>
    simp only [advance, hp, advanceBit]
    split
    · exact nofun
    next hbit =>
      split
      · exact nofun
      next hbyte => exact fun _ => ⟨Fin.eq_last_of_not_lt hbyte, Fin.eq_last_of_not_lt hbit⟩
  | ftrMark =>
    simp only [advance, hp]
    exact fun _ => h (.inl hp)
  | ftrSpace =>
    simp only [advance, hp, advanceRepetition]
    split <;> exact nofun

/-- The transmission that stood at its start in `s` stands in `t` after `k` accepted segments: they are in OUT, and the fields
that neither the sequencer nor a turn writes are as they were. -/
structure SentFrom (n : BitVec 8) (s : State) (k : Nat) (t : State) : Prop where
  transmitting : Transmitting n s.frame k t
  footer_position : FooterPosition t
  out_eq : t.out = s.out ++ segEntries ((stream Config.params s.frame n.toNat).take k)
  err_eq : t.err = s.err
  txinfo_eq : t.txinfo = s.txinfo
  todHour_eq : t.todHour = s.todHour
  todMinute_eq : t.todMinute = s.todMinute

theorem sentFrom_of_atStart {n : BitVec 8} {s : State} (h : AtStart n s) : SentFrom n s 0 s where
  transmitting := transmitting_of_atStart h
  footer_position := by simp [FooterPosition, h.phase_header]
  out_eq := by simp [segEntries]
  err_eq := rfl
  txinfo_eq := rfl
  todHour_eq := rfl
  todMinute_eq := rfl

/-- OUT after one more accepted segment, if that segment is the stream's next. -/
theorem segEntries_take_succ {sgs : List Segment} {k : Nat} {sg : Segment} (h : sgs[k]? = some sg) :
    segEntries (sgs.take (k + 1)) = segEntries (sgs.take k) ++ [.seg sg] := by
  simp [segEntries, List.take_add_one, h]

/-- An accepted segment that is not the last leaves the transmission one segment further. -/
theorem sentFrom_step {n : BitVec 8} {s t : State} {k : Nat} {rest : List Turn} (h : SentFrom n s k t)
    (hturns : t.turns = .seq .ok :: rest) (hk : k + 1 < 292 * n.toNat) :
    ∃ u, step t = .next u ∧ u.turns = rest ∧ SentFrom n s (k + 1) u := by
  obtain ⟨sg, hsg, hstream⟩ := currentSegment_eq_stream Config.params h.transmitting
  refine ⟨_, step_seq_ok_of_segment hturns hsg, by simp, ?_⟩
  exact {
    transmitting := transmitting_advance (transmitting_of_fields_eq h.transmitting) hk
    footer_position := footerPosition_advance h.footer_position
    out_eq := by simp [h.out_eq, segEntries_take_succ hstream]
    err_eq := by simp [h.err_eq]
    txinfo_eq := by simp [h.txinfo_eq]
    todHour_eq := by simp [h.todHour_eq]
    todMinute_eq := by simp [h.todMinute_eq] }

/-- As long as segments remain, `k` accepted SEQ turns take the transmission to its `k`-th segment. -/
theorem run_sends {n : BitVec 8} {s : State} (h : AtStart n s) {k : Nat} (hk : k < 292 * n.toNat) {rest : List Turn}
    (hturns : s.turns = List.replicate k (.seq .ok) ++ rest) :
    ∃ t, run k s = .next t ∧ t.turns = rest ∧ SentFrom n s k t := by
  induction k generalizing rest with
  | zero => exact ⟨s, rfl, hturns, sentFrom_of_atStart h⟩
  | succ k ih =>
    rw [List.replicate_succ', List.append_assoc] at hturns
    obtain ⟨t, ht, htturns, hsent⟩ := ih (Nat.lt_of_succ_lt hk) hturns
    obtain ⟨u, hu, huturns, hnext⟩ := sentFrom_step hsent htturns hk
    exact ⟨u, (run_add ht 1).trans (run_succ_of_next hu 0), huturns, hnext⟩

/-- The last segment of a stream is the footer space of the last repetition. -/
theorem phase_ftrSpace_of_last {n : BitVec 8} {f : Frame} {k : Nat} {s : State} (h : Transmitting n f k s)
    (hk : k + 1 = 292 * n.toNat) : s.phase = .ftrSpace ∧ s.repDone + 1 = n := by
  have hdone := h.done
  have hreps : s.repDone.toNat < n.toNat := h.reps
  have hlt := segmentOffset_lt s
  rw [segmentsDone] at hdone
  have hoffset : segmentOffset s = 291 := by omega
  refine ⟨?_, by bv_omega⟩
  cases hp : s.phase with
  | ftrSpace => rfl
  | idle | hdrMark | hdrSpace | bitMark | bitSpace | ftrMark =>
    simp only [segmentOffset, hp] at hoffset
    omega

/-- After the last segment the sequencer is idle, with every repetition done and the position left at the last bit. -/
theorem advance_last {n : BitVec 8} {f : Frame} {k : Nat} {s : State} (h : Transmitting n f k s) (hfooter : FooterPosition s)
    (hk : k + 1 = 292 * n.toNat) :
    advance s = { s with phase := .idle, byteIdx := 17, bitIdx := 7, repDone := n } := by
  obtain ⟨hp, hreps⟩ := phase_ftrSpace_of_last h hk
  obtain ⟨hbyte, hbit⟩ := hfooter (.inr hp)
  simp only [advance, hp, advanceRepetition, hreps, h.total, BitVec.lt_irrefl, ↓reduceIte, ← hbyte, ← hbit]

/-- The last accepted segment completes the stream in OUT and leaves nothing else changed but the counters and the ports. -/
theorem step_last {n : BitVec 8} {s t : State} {k : Nat} {rest : List Turn} (hstart : AtStart n s) (h : SentFrom n s k t)
    (hturns : t.turns = .seq .ok :: rest) (hk : k + 1 = 292 * n.toNat) :
    step t = .next { s with
      turns := rest, resp := none, out := s.out ++ segEntries (stream Config.params s.frame n.toNat),
      phase := .idle, byteIdx := 17, bitIdx := 7, repDone := n } := by
  obtain ⟨sg, hsg, hstream⟩ := currentSegment_eq_stream Config.params h.transmitting
  have hout : t.out ++ [.seg sg] = s.out ++ segEntries (stream Config.params s.frame n.toNat) := by
    rw [h.out_eq, List.append_assoc, ← segEntries_take_succ hstream, List.take_of_length_le (by simp [hk])]
  have hlogged : Transmitting n s.frame k { t with turns := rest, resp := none, out := t.out ++ [.seg sg] } :=
    transmitting_of_fields_eq h.transmitting
  rw [step_seq_ok_of_segment hturns hsg, advance_last hlogged h.footer_position hk]
  simp [hout, h.transmitting.frame_eq, h.transmitting.has_frame, hstart.has_frame, h.transmitting.total, hstart.total,
    h.err_eq, h.txinfo_eq, h.todHour_eq, h.todMinute_eq]

/-- Settles O53: a run up to the last segment and then its step, or up to the refused segment and then the abort. -/
theorem transmissionEmitsItsStream : Obligations.TransmissionEmitsItsStream := by
  intro n s rest hstart
  refine ⟨fun hturns => ?_, fun k code hk hturns => ?_⟩
  · have hpos : 0 < n.toNat := Nat.pos_of_ne_zero fun h => hstart.some_rep (BitVec.eq_of_toNat_eq h)
    obtain ⟨k, hk⟩ : ∃ k, k + 1 = 292 * n.toNat := ⟨292 * n.toNat - 1, by omega⟩
    rw [← hk, List.replicate_succ', List.append_assoc] at hturns
    obtain ⟨t, ht, htturns, hsent⟩ := run_sends hstart (by omega) hturns
    rw [← hk, run_add ht 1]
    exact run_succ_of_next (step_last hstart hsent htturns hk) 0
  · obtain ⟨t, ht, htturns, hsent⟩ := run_sends hstart hk hturns
    obtain ⟨sg, hsg, hstream⟩ := currentSegment_eq_stream Config.params hsent.transmitting
    refine ⟨_, sg, (run_add ht 1).trans (run_succ_of_next (step_seq_of_segment htturns hsg) 0), hstream, ?_, rfl, rfl, rfl,
      hsent.transmitting.frame_eq, rfl⟩
    rw [← hsent.out_eq]
    rfl

/-! ### The alternation of a stream (R181) -/

/-- Marks at the even positions and spaces at the odd ones, up to a space at the end. -/
structure Alternating (sgs : List Segment) : Prop where
  even_length : sgs.length % 2 = 0
  mark_iff_even : ∀ (k : Nat) (sg : Segment), sgs[k]? = some sg → (sg.level = .mark ↔ k % 2 = 0)

theorem alternating_pair (markUs spaceUs : Nat) : Alternating [markSegment markUs, spaceSegment spaceUs] where
  even_length := by simp
  mark_iff_even := by
    intro k sg hk
    match k with
    | 0 | 1 => cases hk; simp [markSegment, spaceSegment]
    | k + 2 => simp at hk

theorem alternating_append {xs ys : List Segment} (hx : Alternating xs) (hy : Alternating ys) : Alternating (xs ++ ys) where
  even_length := by
    have := hx.even_length
    have := hy.even_length
    rw [List.length_append]
    omega
  mark_iff_even := by
    intro k sg hk
    rcases Nat.lt_or_ge k xs.length with hlt | hge
    · exact hx.mark_iff_even k sg (by rwa [List.getElem?_append_left hlt] at hk)
    · have hlevel := hy.mark_iff_even (k - xs.length) sg (by rwa [List.getElem?_append_right hge] at hk)
      have := hx.even_length
      rw [hlevel]
      omega

theorem alternating_flatten {ls : List (List Segment)} (h : ∀ l ∈ ls, Alternating l) : Alternating ls.flatten := by
  induction ls with
  | nil => exact ⟨rfl, nofun⟩
  | cons l ls ih =>
    rw [List.flatten_cons]
    exact alternating_append (h l List.mem_cons_self) (ih fun l hl => h l (List.mem_cons_of_mem _ hl))

theorem alternating_frameSegments (p : Params) (f : Frame) : Alternating (frameSegments p f) := by
  rw [frameSegments, List.flatMap_def]
  exact alternating_flatten (List.forall_mem_map.mpr fun bit _ => alternating_pair _ _)

theorem alternating_repetition (p : Params) (f : Frame) : Alternating (repetition p f) :=
  alternating_append (alternating_append (alternating_pair _ _) (alternating_frameSegments p f)) (alternating_pair _ _)

theorem alternating_stream (p : Params) (f : Frame) (n : Nat) : Alternating (stream p f n) :=
  alternating_flatten fun _ hl => List.eq_of_mem_replicate hl ▸ alternating_repetition p f

/-- Settles O39: every part of a stream is made of pairs of a mark and a space. -/
theorem streamHas292AlternatingSegments : Obligations.StreamHas292AlternatingSegments := by
  intro p f n
  exact ⟨repetition_length p f, stream_length p f n, (alternating_stream p f n).mark_iff_even⟩

/-! ### The duration of a stream (R186) -/

@[simp] theorem totalDuration_nil : totalDuration [] = 0 := rfl

@[simp] theorem totalDuration_cons (sg : Segment) (sgs : List Segment) :
    totalDuration (sg :: sgs) = sg.durUs + totalDuration sgs := by
  simp [totalDuration]

@[simp] theorem totalDuration_append (xs ys : List Segment) :
    totalDuration (xs ++ ys) = totalDuration xs + totalDuration ys := by
  simp [totalDuration]

@[simp] theorem durUs_markSegment (durUs : Nat) : (markSegment durUs).durUs = durUs := rfl

@[simp] theorem durUs_spaceSegment (durUs : Nat) : (spaceSegment durUs).durUs = durUs := rfl

/-- Every bit has a mark; its space depends on the bit (R111). -/
theorem totalDuration_bits (p : Params) (bits : List Bool) :
    totalDuration (bits.flatMap (bitSegments p)) = bits.length * p.timing.bitMark + bits.count true * p.timing.oneSpace +
      bits.count false * p.timing.zeroSpace := by
  induction bits with
  | nil => simp
  | cons bit bits ih =>
    rw [List.flatMap_cons, totalDuration_append, ih]
    cases bit <;> simp [bitSegments, bitSpaceSegment, Nat.add_mul] <;> omega

theorem totalDuration_repetition (p : Params) (f : Frame) : totalDuration (repetition p f) = repetitionDuration p f := by
  have hzeros : (frameBits f).count false = 144 - onesCount f := by
    have := List.count_false_add_count_true (frameBits f)
    rw [frameBits_length] at this
    rw [onesCount]
    omega
  simp only [repetition, frameSegments, totalDuration_append, totalDuration_bits, hzeros, frameBits_length,
    totalDuration_cons, totalDuration_nil, durUs_markSegment, durUs_spaceSegment, repetitionDuration, onesCount]
  omega

/-- Settles O40: the bits with their spaces counted by value, and a stream repetition by repetition. -/
theorem transmissionDurationFormula : Obligations.TransmissionDurationFormula := by
  intro p f n
  refine ⟨totalDuration_repetition p f, ?_⟩
  induction n with
  | zero => simp [stream]
  | succ n ih =>
    rw [stream, List.replicate_succ, List.flatten_cons, totalDuration_append, ← stream, ih, totalDuration_repetition,
      Nat.succ_mul, Nat.add_comm]

end Sys2Proof.Proofs
end

section
/-! PROOFS. The public operations and the control commands: SEND and POWER_OFF leave the start of a transmission of two
repetitions, and a run of it puts the frame of a SEND on the line twice; a default power-off frame beside a default power-on
frame; and the one response word of every command. -/

namespace Sys2Proof.Proofs

open Sys2Proof.Machine Sys2Proof.Laws

/-! ### The control commands (R212, R213, R214) -/

/-- Settles O16: none of the three checks anything, so each is its own update and its response. -/
theorem controlCommandsTakeEffect : Obligations.ControlCommandsTakeEffect :=
  fun _ => ⟨rfl, rfl, rfl⟩

/-! ### SEND and POWER_OFF (R210, R211, R216) -/

/-- The commit of the frame, then START with the protocol's count, which is not 0. -/
theorem buildAndSend_eq (p : Params) (pwr : PowerMode) (st : Settings) (s : State) :
    buildAndSend p pwr st s = { s with
      frame := encodeFrame p pwr st s.todHour s.todMinute, frameValid := true,
      repTotal := 2, repDone := 0, byteIdx := 0, bitIdx := 0, phase := .hdrMark } :=
  startTransmission_of_ne (by decide) _

/-- Settles O14: the check passes, and the rest is the build and the start. -/
theorem sendBuildsAndStarts : Obligations.SendBuildsAndStarts := by
  intro st s hp
  rw [exec_send_of_idle hp, buildAndSend_eq]
  rfl

/-- Settles O15: the check passes, and the rest is the build and the start. -/
theorem powerOffBuildsAndStarts : Obligations.PowerOffBuildsAndStarts := by
  intro s hp
  rw [exec_powerOff_of_idle hp, buildAndSend_eq]
  rfl

/-! ### A SEND from its word to the end of its transmission (R180, R181, R210) -/

/-- The step of a SEND word on an idle sequencer leaves the start of two repetitions of its frame. -/
theorem step_send {s : State} {w : Word} {h : BitVec 5} {m : BitVec 6} {rest : List Turn} {st : Settings}
    (hp : s.phase = .idle) (hd : decode Config.params w = .ok (.send st)) (hturns : s.turns = .host w h m :: rest) :
    ∃ t, step s = .next t ∧ AtStart 2 t ∧ t.turns = rest ∧ t.frame = encodeFrame Config.params .powerOn st h m ∧
      t.err = s.err ∧ t.out = s.out := by
  have hidle : (takeTurn (.host w h m) rest s).phase = .idle := by simpa using hp
  have hsend := (hostTurn_of_ok hd _).trans (sendBuildsAndStarts st _ hidle)
  exact ⟨_, (step_of_turn hturns).trans hsend, ⟨rfl, rfl, rfl, rfl, rfl, rfl, by decide⟩, rfl, rfl, rfl, rfl⟩

theorem stream_two (p : Params) (f : Frame) : stream p f 2 = repetition p f ++ repetition p f := by
  simp [stream, List.replicate_succ]

/-- Settles O55: the step of the SEND word, then the whole transmission of the frame it built. -/
theorem sendEmitsItsFrameTwice : Obligations.SendEmitsItsFrameTwice := by
  intro s w h m rest st hp hd hturns
  obtain ⟨u, hu, hstart, huturns, huframe, huerr, huout⟩ := step_send hp hd hturns
  obtain ⟨hrun, -⟩ := transmissionEmitsItsStream 2 u rest hstart
  refine ⟨_, (run_succ_of_next hu 584).trans (hrun huturns), rfl, rfl, huerr, huframe, hstart.has_frame, ?_⟩
  rw [← stream_two, ← huframe, ← huout]
  rfl

/-! ### The example of R211 -/

/-- The power mode shows in the Power byte and in the checksum only. -/
theorem encodeFrame_eq_of_ne_power (p : Params) (pwr pwr' : PowerMode) (st : Settings) (h : BitVec 5) (m : BitVec 6)
    {i : FramePos} (hpower : i ≠ p.fieldPos .power) (hchecksum : i ≠ Config.checksumIndex) :
    (encodeFrame p pwr st h m)[i] = (encodeFrame p pwr' st h m)[i] := by
  by_cases hfield : ∃ n, p.fieldPos n = i
  · obtain ⟨n, rfl⟩ := hfield
    rw [encodeFrame_field, encodeFrame_field]
    cases n with
    | power => exact absurd rfl hpower
    | _ => rfl
  · have hnone := not_exists.mp hfield
    rw [encodeFrame_template p pwr st h m hchecksum hnone, encodeFrame_template p pwr' st h m hchecksum hnone]

/-- Settles O30: the two frames are ENCODE of the same settings under two power modes. -/
theorem powerOffFrameDiffersInTwoPlaces : Obligations.PowerOffFrameDiffersInTwoPlaces := by
  intro p h m i hdefault hpower hchecksum
  rw [hdefault]
  exact encodeFrame_eq_of_ne_power p .powerOff .powerOn Config.defaultSettings h m hpower hchecksum

/-! ### The response word (R217) -/

/-- The word that answers a command in a state, rejected or not: only the two reads answer anything but 0. -/
def responseWord (i : Instr) (s : State) : Word :=
  match i with
  | .readFrame idx => if s.frameValid = true then s.frame[idx].setWidth 64 else 0
  | .readStatus => statusWord s
  | .nop => 0
  | .build _ _ => 0
  | .transmit _ => 0
  | .send _ => 0
  | .powerOff => 0
  | .clearStatus => 0

theorem exec_resp {i : Instr} {s t : State} (h : exec i s = .next t) : t.resp = some (responseWord i s) := by
  rcases exec_cases h with ⟨rfl, rfl⟩ | ⟨pwr, st, rfl, -, rfl⟩ | ⟨rpt, rfl, -, -, rfl⟩ | ⟨pwr, st, -, rfl, hi⟩ |
    ⟨idx, rfl, hv, rfl⟩ | ⟨rfl, rfl⟩ | ⟨rfl, rfl⟩ | ⟨-, rfl, hi⟩ | ⟨hv, rfl, hi⟩
  · rfl
  · rfl
  · rfl
  · rcases hi with ⟨rfl, -⟩ | ⟨rfl, -, -⟩ <;> rfl
  · rw [responseWord, if_pos hv, respond_resp]
  · rfl
  · rfl
  · rcases hi with ⟨pwr, st, rfl⟩ | ⟨rpt, rfl⟩ | ⟨st, rfl⟩ | rfl <;> rfl
  · rcases hi with ⟨rpt, rfl, -⟩ | ⟨idx, rfl⟩
    · rfl
    · simp [responseWord, hv]

/-- Taking a turn changes nothing a response is read from. -/
theorem responseWord_takeTurn (i : Instr) (turn : Turn) (rest : List Turn) (s : State) :
    responseWord i (takeTurn turn rest s) = responseWord i s := by
  cases turn <;> cases i <;> rfl

/-- A SEQ turn writes no response. -/
theorem seqTurn_resp {p : Params} {a : TxAnswer} {s t : State} (h : seqTurn p a s = .next t) : t.resp = s.resp := by
  rcases seqTurn_cases h with ⟨-, rfl⟩ | ⟨-, sg, -, rfl⟩
  · rfl
  · cases a with
    | ok => exact advance_resp _
    | fail code => rfl

/-- Settles O21: a word that decodes is answered as its command, an illegal one is rejected, and no other turn responds. -/
theorem everyCommandIsAnsweredOnce : Obligations.EveryCommandIsAnsweredOnce := by
  intro s t turn rest hturns hstep
  rw [step_of_turn hturns] at hstep
  cases turn with
  | host w h m =>
    cases hd : decode Config.params w with
    | error e =>
      rw [runTurn, hostTurn_of_error hd] at hstep
      cases hstep
      simp [hd]
    | ok i =>
      rw [runTurn, hostTurn_of_ok hd] at hstep
      have hresp := exec_resp hstep
      rw [responseWord_takeTurn] at hresp
      simp only [hd]
      cases i <;> exact hresp
  | seq a => simpa using seqTurn_resp hstep
  | reset =>
    cases hstep
    rfl

end Sys2Proof.Proofs
end

section
/-! PROOFS. The exceptions: the three rejections, each as the one command or word that meets its condition (R243, R244, R245),
their order (R247), and that nothing but a build reads the time-of-day ports (R257). -/

namespace Sys2Proof.Proofs

open Sys2Proof.Machine Sys2Proof.Laws

/-! ### No command stops the machine (R251) -/

/-- Settles O10: the one operation that can fault is the read of a frame byte, and READ_FRAME checks for a frame first. -/
theorem everyCommandHasAnEffect : Obligations.EveryCommandHasAnEffect :=
  exec_answers_next

/-! ### BUSY (R244) -/

theorem exec_of_needsIdle_of_busy {i : Instr} {s : State} (hneeds : NeedsIdle i) (hp : s.phase ≠ .idle) :
    exec i s = .next (reject .busy s) := by
  cases i with
  | build | transmit | send | powerOff =>
    simp only [exec, execBuild, execTransmit, execSend, execPowerOff]
    exact whenIdle_of_busy hp _
  | nop | readFrame | readStatus | clearStatus => exact hneeds.elim

/-- A command raises BUSY only where the idle check is made and fails. -/
theorem needsIdle_of_exec_raises_busy {i : Instr} {s t : State} (h : exec i s = .next t) (hbusy : t.err = .busy)
    (hbefore : s.err ≠ .busy) : NeedsIdle i ∧ s.phase ≠ .idle := by
  rcases exec_err h (hbusy.trans_ne hbefore.symm) with ⟨-, hraised⟩ | ⟨hnoFrame, -⟩ | ⟨hnone, -⟩
  · exact hraised
  · simp [hbusy] at hnoFrame
  · simp [hbusy] at hnone

/-- Settles O18: the idle check rejects the commands that make it, and only its rejection writes BUSY. -/
theorem busyRejectsExactlyTheStarters : Obligations.BusyRejectsExactlyTheStarters := by
  intro i s hp
  refine ⟨fun hneeds => exec_of_needsIdle_of_busy hneeds hp, fun hfree => ?_⟩
  obtain ⟨t, ht⟩ := exec_answers_next i s
  refine ⟨t, ht, fun hbusy => ?_⟩
  by_contra hbefore
  exact hfree (needsIdle_of_exec_raises_busy ht hbusy hbefore).1

/-! ### NO_FRAME (R245) -/

/-- The frame check comes after the idle check, which a command passes unless it needs an idle sequencer and has none. -/
theorem exec_of_needsFrame_of_invalid {i : Instr} {s : State} (hneeds : NeedsFrame i)
    (hpass : ¬ (NeedsIdle i ∧ s.phase ≠ .idle)) (hv : s.frameValid = false) : exec i s = .next (reject .noFrame s) := by
  cases i with
  | transmit rpt =>
    have hp : s.phase = .idle := by simpa [NeedsIdle] using hpass
    rw [exec, execTransmit, whenIdle_of_idle hp, whenFrame_of_invalid hv]
  | readFrame idx => exact exec_readFrame_of_invalid hv idx
  | nop | build | send | powerOff | readStatus | clearStatus => exact hneeds.elim

/-- A command raises NO_FRAME only where the frame check is reached and fails. -/
theorem needsFrame_of_exec_raises_noFrame {i : Instr} {s t : State} (h : exec i s = .next t) (hnoFrame : t.err = .noFrame)
    (hbefore : s.err ≠ .noFrame) : NeedsFrame i ∧ s.frameValid = false ∧ ¬ (NeedsIdle i ∧ s.phase ≠ .idle) := by
  rcases exec_err h (hnoFrame.trans_ne hbefore.symm) with ⟨hbusy, -⟩ | ⟨-, hneeds, hv⟩ | ⟨hnone, -⟩
  · simp [hnoFrame] at hbusy
  · refine ⟨hneeds, hv, fun ⟨hidle, hp⟩ => ?_⟩
    rw [exec_of_needsIdle_of_busy hidle hp] at h
    cases h
    simp at hnoFrame
  · simp [hnoFrame] at hnone

/-- Settles O19: the frame check rejects both users, and each of the other cases breaks a condition of raising NO_FRAME. -/
theorem noFrameRejectsExactlyTheFrameUsers : Obligations.NoFrameRejectsExactlyTheFrameUsers := by
  intro s
  refine ⟨fun hv => ⟨fun rpt hp => ?_, fun idx => exec_readFrame_of_invalid hv idx⟩, fun i hcase => ?_⟩
  · exact exec_of_needsFrame_of_invalid (i := .transmit rpt) trivial (fun hbusy => hbusy.2 hp) hv
  · obtain ⟨t, ht⟩ := exec_answers_next i s
    refine ⟨t, ht, fun hnoFrame => ?_⟩
    by_contra hbefore
    obtain ⟨hneeds, hv, hpass⟩ := needsFrame_of_exec_raises_noFrame ht hnoFrame hbefore
    rcases hcase with hfree | hvalid | ⟨⟨rpt, rfl⟩, hp⟩
    · exact hfree hneeds
    · simp [hv] at hvalid
    · exact hpass ⟨trivial, hp⟩

/-! ### ILLEGAL_CMD (R243) and the order of the codes (R247) -/

theorem decode_error_of_illegalWord {p : Params} {w : Word} (h : IllegalWord p w) : ∃ e, decode p w = .error e := by
  cases hd : decode p w with
  | error e => exact ⟨e, rfl⟩
  | ok i => exact absurd h ((decode_ok_iff p w).mp ⟨i, hd⟩)

theorem step_of_illegalWord {s : State} {w : Word} {h : BitVec 5} {m : BitVec 6} {rest : List Turn}
    (hturns : s.turns = .host w h m :: rest) (hillegal : IllegalWord Config.params w) :
    step s = .next (reject .illegalCmd (takeTurn (.host w h m) rest s)) := by
  obtain ⟨e, he⟩ := decode_error_of_illegalWord hillegal
  rw [step_of_turn hturns, runTurn, hostTurn_of_error he]

/-- Settles O7: DECODE fails on exactly the words illegal by their bits, and what it answers is well-formed. -/
theorem illegalWordsAreRejected : Obligations.IllegalWordsAreRejected := by
  intro s w h m rest hturns
  refine ⟨fun hillegal => step_of_illegalWord hturns hillegal, fun hlegal => ?_⟩
  obtain ⟨i, hi⟩ := (decode_ok_iff Config.params w).mpr hlegal
  exact ⟨i, hi, (carries_of_decode hi).2⟩

/-- Settles O20: the word is decoded first, and a command that makes both checks makes the idle check first. -/
theorem firstRejectionConditionIsReported : Obligations.FirstRejectionConditionIsReported := by
  intro s w h m rest hturns
  cases hd : decode Config.params w with
  | error e =>
    have hillegal := illegalWord_of_decode_error hd
    exact ⟨_, step_of_illegalWord hturns hillegal, fun _ => rfl, fun i hlegal => absurd hillegal hlegal,
      fun i hlegal => absurd hillegal hlegal⟩
  | ok i =>
    obtain ⟨t, ht⟩ := exec_answers_next i (takeTurn (.host w h m) rest s)
    refine ⟨t, ?step, ?illegal, ?busy, ?noFrame⟩
    case step => rw [step_of_turn hturns, runTurn, hostTurn_of_ok hd, ht]
    case illegal => exact fun hillegal => absurd hillegal ((decode_ok_iff Config.params w).mp ⟨i, hd⟩)
    case busy =>
      rintro _ - ⟨⟩ hneeds hp
      rw [exec_of_needsIdle_of_busy hneeds (by simpa using hp)] at ht
      cases ht
      rfl
    case noFrame =>
      rintro _ - ⟨⟩ hpass hneeds hv
      rw [exec_of_needsFrame_of_invalid hneeds (by simpa using hpass) (by simpa using hv)] at ht
      cases ht
      rfl

/-! ### Who reads the time-of-day ports (R257) -/

/-- The state with other levels on the time-of-day ports. -/
def withPorts (h : BitVec 5) (m : BitVec 6) (s : State) : State := { s with todHour := h, todMinute := m }

/-- START reads and writes no port. -/
theorem startTransmission_withPorts (n : BitVec 8) (h : BitVec 5) (m : BitVec 6) (s : State) :
    startTransmission n (withPorts h m s) = withPorts h m (startTransmission n s) := by
  by_cases hn : n = 0
  · rw [hn, startTransmission_zero, startTransmission_zero]
  · rw [startTransmission_of_ne hn, startTransmission_of_ne hn]
    rfl

/-- Of all a command can do, only a build on an idle sequencer asks for the ports; every other check and update reads other
fields. -/
theorem exec_withPorts {i : Instr} {s t : State} (hcase : ¬ BuildsFrame i ∨ s.phase ≠ .idle) (hexec : exec i s = .next t)
    (h : BitVec 5) (m : BitVec 6) : exec i (withPorts h m s) = .next (withPorts h m t) := by
  rcases exec_cases hexec with ⟨rfl, rfl⟩ | ⟨pwr, st, rfl, hp, -⟩ | ⟨rpt, rfl, hp, hv, rfl⟩ | ⟨pwr, st, hp, -, hi⟩ |
    ⟨idx, rfl, hv, rfl⟩ | ⟨rfl, rfl⟩ | ⟨rfl, rfl⟩ | ⟨hp, rfl, hi⟩ | ⟨hv, rfl, hi⟩
  · rfl
  · simp [BuildsFrame, hp] at hcase
  · rw [exec_transmit_of_idle (s := withPorts h m s) hp hv, startTransmission_withPorts]
    rfl
  · rcases hi with ⟨rfl, -⟩ | ⟨rfl, -, -⟩ <;> simp [BuildsFrame, hp] at hcase
  · exact exec_readFrame_of_valid (s := withPorts h m s) hv idx
  · rfl
  · rfl
  · have hneeds : NeedsIdle i := by rcases hi with ⟨_, _, rfl⟩ | ⟨_, rfl⟩ | ⟨_, rfl⟩ | rfl <;> trivial
    exact exec_of_needsIdle_of_busy (s := withPorts h m s) hneeds hp
  · rcases hi with ⟨rpt, rfl, hp⟩ | ⟨idx, rfl⟩
    · exact exec_of_needsFrame_of_invalid (i := .transmit rpt) (s := withPorts h m s) trivial (fun hbusy => hbusy.2 hp) hv
    · exact exec_readFrame_of_invalid (s := withPorts h m s) hv idx

/-- Settles O32: the statement writes out the two states with other port levels. -/
theorem onlyBuildsReadTheTimeOfDay : Obligations.OnlyBuildsReadTheTimeOfDay := by
  intro i s t h m hcase hexec
  exact exec_withPorts hcase hexec h m

end Sys2Proof.Proofs
end

section
/-! PROOFS. Reset and waiting: what a step does with a reset turn (R270, R271) and with no turn at all (R272). -/

namespace Sys2Proof.Proofs

open Sys2Proof.Machine Sys2Proof.Laws

/-- An idle sequencer leaves the output line unmodulated (R184). -/
theorem lineLevel_of_idle {s : State} (hp : s.phase = .idle) : lineLevel s = some .space := by
  rw [lineLevel, (busy_eq_false_iff s).mpr hp]
  rfl

/-- A reset turn is taken whatever the sequencer is doing: no case of `step` asks for the phase. -/
theorem step_reset {s : State} {rest : List Turn} (hturns : s.turns = .reset :: rest) :
    step s = .next (resetBlock (takeTurn .reset rest s)) :=
  step_of_turn hturns

/-- Settles O43: the fields are those of `resetBlock`, and its idle phase makes the line idle. -/
theorem resetTurnRestoresTheResetState : Obligations.ResetTurnRestoresTheResetState := by
  intro s rest hturns
  refine ⟨resetBlock (takeTurn .reset rest s), step_reset hturns, ?_⟩
  have hline := lineLevel_of_idle (resetBlock_phase (takeTurn .reset rest s))
  simp [hline]

/-- Settles O9: with no turn lined up the step is the wait of R272. -/
theorem stepWithoutATurnWaits : Obligations.StepWithoutATurnWaits :=
  fun _ => step_of_no_turn

end Sys2Proof.Proofs
end
